-- ==== Sys2Proof/Word.lean ====
section
/-! DEFINITION. The two word sizes of the station window and of the tables (10_frame_and_record_formats.md). -/
namespace Sys2Proof

/-- One byte of a frame, slot or record. -/
abbrev Byte := BitVec 8

/-- One 32-bit word of a table, a parameter or a reply. -/
abbrev Word := BitVec 32

end Sys2Proof
end

