-- ==== Sys2Proof/Syntax.lean ====
section
/-! DEFINITION. The commands of the block: one constructor of `Instr` per row of spec/opcode_table.json, with the
operands each takes. A request's operands are the raw fields of the request slot (10.2), so that a value outside its
range can be written down and is answered as the spec says. -/
namespace Sys2Proof

/-- One horizontal arm of the machine, A or B (00, Terms). -/
inductive Arm
  | a
  | b
deriving DecidableEq, Repr

/-- A ring port: P1 faces the ring master, P2 the field stations (00, Place on the ring). -/
inductive RingPort
  | p1
  | p2
deriving DecidableEq, Repr

/-- The six table kinds (R119); ARM MAP exists once per arm. -/
inductive TableKind
  | slotMap
  | armMap (x : Arm)
  | channelTable
  | zoneTable
  | stationRecord
deriving DecidableEq, Repr

/-- A frame as it stands on the ring (10.1): the two Ethernet addresses, which the part does not read, the EtherType,
the 12-byte ring header with byte `i` in bits `8i..8i+7`, and the payload, sparse by byte offset (log 22). Whether the
frame check is good is said by the command that brings the frame. -/
structure RingFrame where
  addresses : BitVec 96
  etherType : BitVec 16
  header    : BitVec 96
  length    : Nat
  payload   : List (Nat × Byte)
deriving DecidableEq, Repr

/-- The six parameter words of the request slot (10.2). -/
structure ParamWords where
  w0 : Word
  w1 : Word
  w2 : Word
  w3 : Word
  w4 : Word
  w5 : Word
deriving DecidableEq, Repr

/-- A part of a frame's work whose place among the other parts the spec leaves to the world ("either may be taken
first"). The first group is the outbound pass's own work, the second the return pass's own work
(95_what_each_step_holds.md, CYCLE_FRAME_RETURN), the third the steps that are rows of their own. `thermalStep` and
`rackStep` take the next channel, aggregate or port alone, so that a selection can stand between two postings of one block
(R168); `thermal` and `rack` take all that are left. `check` completes a check whose last portion the pass has examined (R124,
R129). DESIGN CHOICE (log 38): a trigger edge is no part of a pass; it is a command
of its own, taken before the pass or after it. -/
inductive Part
  | request
  | guardWord
  | thermalStep
  | thermal
  | correct (x : Arm)
  | numeric (x : Arm)
  | limits (x : Arm)
  | monitor (x : Arm)
  | status (x : Arm)
  | rackStep
  | rack
  | checks
  | select
  | drain
  | resolve (x : Arm)
  | late (x : Arm)
  | drop (x : Arm)
  | pick (x : Arm) (headLast : Bool)
  | release (zone : Nat)
  | rearm (x : Arm)
  | autoAdvance (x : Arm)
  | stepTimeout (x : Arm)
  | check (kind : TableKind)
deriving DecidableEq, Repr

/-- The world's choices on one return pass: the parts it takes first, in order, and the order of the channels, of the
aggregates and of the rack ports within their parts. What a list does not name follows in the default order (log 5). -/
structure PassChoices where
  order      : List Part
  channels   : List Nat
  aggregates : List Nat
  ports      : List Nat
deriving DecidableEq, Repr

/-- The world's choices on one outbound pass: whether the written marks are cleared before the request slot is read
(log 25), whether a request that a rule lets follow the return pass does so (log 6), and the parts taken first. -/
structure OutboundChoices where
  marksFirst : Bool
  late       : Bool
  order      : List Part
deriving DecidableEq, Repr

/-- The commands, in the order of spec/opcode_table.json. `elapsed` is the time in ns that the station clock has run
since the command before (log 3). -/
inductive Instr
  | cycleFrameOutbound (elapsed : Nat) (frame : RingFrame) (out : OutboundChoices) (back : PassChoices)
  | cycleFrameReturn (elapsed : Nat) (frame : RingFrame) (choices : PassChoices)
  | pointDrain
  | touchResolve (x : Arm)
  | lateResolution (x : Arm)
  | triggerEdge (elapsed : Nat) (x : Arm) (rising : Bool)
  | rearmExpiry (x : Arm)
  | autoAdvanceExpiry (x : Arm)
  | stepTimeout (x : Arm)
  | dropComplete (x : Arm)
  | pickComplete (x : Arm) (headLast : Bool)
  | deferredRelease (zone : Nat)
  | missedFrameDeadline (bFirst : Bool)
  | badCheckFrame (elapsed : Nat) (port : RingPort) (frame : RingFrame) (bFirst : Bool)
  | wrongLengthFrame (elapsed : Nat) (port : RingPort) (frame : RingFrame) (bFirst : Bool)
  | linkCheckFrame (elapsed : Nat) (port : RingPort) (frame : RingFrame)
  | otherFrame (elapsed : Nat) (port : RingPort) (frame : RingFrame)
  | powerOnReset (cut1 cut2 : Bool)
  | p2LinkChange (elapsed : Nat) (up : Bool)
  | p1LinkChange (elapsed : Nat) (up : Bool)
  | tableCheckComplete (kind : TableKind)
  | stationMode (state : Word)
  | stationReset
  | statusRead (page selector part : Byte)
  | tableWrite (kind count : Byte) (offset : BitVec 16) (words : ParamWords)
  | tableClear (kind : Byte)
  | tableCheck (kind : Byte) (expected : Word)
  | tableActivate (kind : Byte)
  | tableRead (kind bank : Byte) (offset : BitVec 16)
  | tipSet (tip : Byte) (fields : ParamWords)
  | tipRemove (tip : Byte)
  | portSet (port : Byte) (state tip : Word)
  | armTipSet (arm : Byte) (tip : Word)
  | triggerArm (arm : Byte)
  | triggerDisarm (arm : Byte)
  | featureOpen (arm : Byte)
  | featureClose (arm : Byte)
  | workpieceSet (fields : ParamWords)
  | workpieceClear
  | thermalAdvance (arm : Byte)
  | zoneClaim (arm zone : Byte)
  | zoneRelease (arm zone : Byte)
  | holdRelease (arm : Byte) (recover : Word)
  | changeBegin (arm : Byte) (drop pick : Word)
  | changeAbort (arm : Byte)
  | eventPriority (source : Byte) (priority : Word)
  | reportLevel (level : Word)
  | powerOnResetEnd
deriving DecidableEq, Repr

end Sys2Proof
end

