-- ==== Sys2Proof/Config.lean ====
section
/-! DEFINITION. What is fixed for the part (identity, capacities, reset priorities) and the FREE VALUES: constants with
no body, for a value the spec leaves unstated. Nothing can be proved of a free value but what holds of every value. -/
namespace Sys2Proof.Config

/-- Payload bytes of a cycle frame and of a link-check frame (R137, 10.1). -/
def payloadLength : Nat := 1472

/-- Bytes of the station window (R143). -/
def windowLength : Nat := 256

/-- EtherType of every ring frame (R172). -/
def etherType : BitVec 16 := 0x9A26

/-- Vendor code of the identity record (R145). -/
def vendorCode : Nat := 0x0E31

/-- Part code of the identity record (R145). -/
def partCode : Nat := 2606

/-- Silicon revision, "1 for the parts this manual describes" (R145). -/
def siliconRevision : Nat := 1

/-- Identity records that fill a link-check payload (10.1). -/
def identityCapacity : Nat := 92

/-- Point records the queue holds (R66). -/
def queueCapacity : Nat := 32

/-- Entries an arm's history holds (R24). -/
def historyCapacity : Nat := 4

/-- Words one portion of a check examines (R124). -/
def checkPortion : Nat := 128

/-- The value at which the missed-frame count and the turned-around count are held (R149, R141). -/
def countCeiling : Nat := 65535

/-- Reset priorities of the 17 event sources, by source number (9.1). -/
def resetPriorities : List Nat := [7, 7, 7, 7, 7, 7, 5, 5, 4, 4, 6, 2, 3, 3, 4, 1, 7]

/-- FREE VALUE (log 13): the byte the ARM page shows for the fault cause of a session that has none; 10.5 states no code. -/
opaque noFaultCauseByte : Byte

/-- FREE VALUE (log 13): the port byte the TIPS page shows for a tip that stands in no port; 10.5 states no code. -/
opaque tipsNoPortByte : Byte

/-- FREE VALUE (log 17): the head-state word of a "head" posting made by a mismatch of the other arm when the arm's head
has never been read; 10.3 states no code. -/
opaque unreadHeadWord : Word

/-- FREE VALUE (log 14): whether a frame with a failed check that arrives at P1 while P2's link is down is turned around
(with its check made bad) or discarded; R136 and R137 do not say. -/
opaque badFrameTurnsAround : RingFrame → Bool

end Sys2Proof.Config
end

