-- ==== Sys2Proof/Machine/Memory.lean ====
section
/-! DEFINITION. The block's addressed buffers: the words of a table bank by word offset (R119), the bytes of a payload
by byte offset (10). A buffer is a list of (offset, value) pairs in one canonical form: offsets strictly rising, no zero
value listed. An unlisted offset reads as zero (R120, R122: a bank is zero until written; log 22). -/
namespace Sys2Proof.Machine

/-- A sparse buffer of `w`-bit values. -/
abbrev Memory (w : Nat) := List (Nat × BitVec w)

/-- The value at an offset; zero where nothing is listed. -/
def Memory.read {w : Nat} : Memory w → Nat → BitVec w
  | [], _ => 0
  | (k, v) :: rest, a => if k = a then v else Memory.read rest a

/-- Write one value, keeping the canonical form: writing zero removes the entry. -/
def Memory.write {w : Nat} : Memory w → Nat → BitVec w → Memory w
  | [], a, v => if v = 0 then [] else [(a, v)]
  | (k, x) :: rest, a, v =>
    if a < k then (if v = 0 then (k, x) :: rest else (a, v) :: (k, x) :: rest)
    else if a = k then (if v = 0 then rest else (a, v) :: rest)
    else (k, x) :: Memory.write rest a v

/-- Write consecutive values from an offset on. -/
def Memory.writeAll {w : Nat} : Memory w → Nat → List (BitVec w) → Memory w
  | m, _, [] => m
  | m, a, v :: vs => Memory.writeAll (Memory.write m a v) (a + 1) vs

/-- The offsets of a buffer rise strictly, the first not below `lo`, and no value listed is zero. -/
def Memory.wfFrom {w : Nat} : Nat → Memory w → Bool
  | _, [] => true
  | lo, (k, v) :: rest => decide (lo ≤ k) && decide (v ≠ 0) && Memory.wfFrom (k + 1) rest

/-- The canonical form. -/
def Memory.wf {w : Nat} (m : Memory w) : Bool := Memory.wfFrom 0 m

/-- Every listed offset lies below a length. -/
def Memory.below {w : Nat} (m : Memory w) (n : Nat) : Bool := m.all (fun c => decide (c.1 < n))

/-- `n` bytes from an offset as one number, least significant byte first (10). -/
def Memory.readLE (m : Memory 8) (off : Nat) : Nat → Nat
  | 0 => 0
  | n + 1 => (Memory.read m off).toNat + 256 * Memory.readLE m (off + 1) n

/-- The `n` bytes of a number, least significant first (10). -/
def leBytes : Nat → Nat → List Byte
  | 0, _ => []
  | n + 1, v => BitVec.ofNat 8 v :: leBytes n (v / 256)

/-- The bytes of a signed number in `n` bytes, two's complement. -/
def leBytesInt (n : Nat) (v : Int) : List Byte := leBytes n (BitVec.ofInt (8 * n) v).toNat

end Sys2Proof.Machine
end

