-- ==== Sys2Proof/Machine/Frames.lean ====
section
/-! DEFINITION. The ring header and the kinds of frame (10.1, R172), and the station window's places (10.2). -/
namespace Sys2Proof.Machine

/-- Byte `i` of the ring header. -/
def headerByte (f : RingFrame) (i : Nat) : Byte := f.header.extractLsb' (8 * i) 8

/-- The header with byte `i` replaced. -/
def withHeaderByte (i : Nat) (v : Byte) (f : RingFrame) : RingFrame :=
  { f with header := (f.header &&& ~~~((255 : BitVec 96) <<< (8 * i))) ||| ((v.setWidth 96) <<< (8 * i)) }

/-- The three kinds of frame (R136). -/
inductive FrameKind
  | cycle
  | linkCheck
  | other
deriving DecidableEq, Repr

/-- R172: the EtherType and header byte 0 decide the kind; the content never does. -/
def frameKind (f : RingFrame) : FrameKind :=
  if f.etherType = Config.etherType then
    if headerByte f 0 = 1 then .cycle else if headerByte f 0 = 2 then .linkCheck else .other
  else .other

/-- Frame number of a cycle frame, header bytes 2 and 3. -/
def frameNumber (f : RingFrame) : BitVec 16 := f.header.extractLsb' 16 16

/-- Sync time of a cycle frame, header bytes 4 to 11. -/
def syncTime (f : RingFrame) : BitVec 64 := f.header.extractLsb' 32 64

/-- A cycle frame with the payload length of R137: the only kind that takes passes. -/
def isCycleFrame (f : RingFrame) : Bool := decide (frameKind f = .cycle) && decide (f.length = Config.payloadLength)

/-- A cycle frame whose payload is not 1,472 bytes long (R137). -/
def isWrongLength (f : RingFrame) : Bool := decide (frameKind f = .cycle) && decide (f.length ≠ Config.payloadLength)

/-- A frame's payload with bytes written from an offset on. -/
def writePayload (off : Nat) (bytes : List Byte) (f : RingFrame) : RingFrame :=
  { f with payload := Memory.writeAll f.payload off bytes }

/-- A cycle frame of the right length, for the tests and for whoever builds one. -/
def cycleFrame (number : BitVec 16) (sync : BitVec 64) (payload : Memory 8) : RingFrame :=
  { addresses := 0, etherType := Config.etherType,
    header := (1 : BitVec 96) ||| (number.setWidth 96 <<< 16) ||| (sync.setWidth 96 <<< 32),
    length := Config.payloadLength, payload := payload }

/-! Places in the station window (10.2). -/

/-- Guard word, window bytes 32 to 35. -/
def windowGuard : Nat := 32
/-- Reply slot, window bytes 36 to 107. -/
def windowReply : Nat := 36
/-- Event slot, window bytes 108 to 127. -/
def windowEvent : Nat := 108
/-- Arm position block, window bytes 128 to 151 for arm A and 152 to 175 for arm B. -/
def windowPosition : Arm → Nat
  | .a => 128
  | .b => 152
/-- Point slot 1 at window bytes 176 to 207, point slot 2 at 208 to 239. -/
def windowPoint (i : Nat) : Nat := 176 + 32 * i

end Sys2Proof.Machine
end

