-- ==== Sys2Proof/WellFormed.lean ====
section
/-! DEFINITION. What a command must be to be one the world can send: its frame is of the row's kind and held in the
canonical form, its zone exists, its time fits the station clock. A command that is not well-formed is no event of the
part; the machine leaves the state as it was for it (log 1). -/
namespace Sys2Proof

open Machine

/-- The payload is canonical and lies within the frame. -/
def RingFrame.wellFormed (f : RingFrame) : Bool := Memory.wf f.payload && Memory.below f.payload f.length

/-- A zone named by a part exists. -/
def Part.wellFormed : Part → Bool
  | .release z => decide (z < 8)
  | _ => true

/-- Every index of an order list exists. -/
def PassChoices.wellFormed (c : PassChoices) : Bool :=
  c.order.all Part.wellFormed && c.channels.all (fun i => decide (i < 24))
    && c.aggregates.all (fun i => decide (i < 8)) && c.ports.all (fun i => decide (i < 12))

/-- The time since the last command fits the 64-bit clock. -/
def elapsedOk (t : Nat) : Bool := decide (t < 2 ^ 64)

/-- The check of one command. -/
def Instr.wellFormed : Instr → Bool
  | .cycleFrameOutbound t f o b =>
    elapsedOk t && f.wellFormed && isCycleFrame f && o.order.all Part.wellFormed && b.wellFormed
  | .cycleFrameReturn t f c => elapsedOk t && f.wellFormed && isCycleFrame f && c.wellFormed
  | .pointDrain => true
  | .touchResolve _ => true
  | .lateResolution _ => true
  | .triggerEdge t _ _ => elapsedOk t
  | .rearmExpiry _ => true
  | .autoAdvanceExpiry _ => true
  | .stepTimeout _ => true
  | .dropComplete _ => true
  | .pickComplete _ _ => true
  | .deferredRelease z => decide (z < 8)
  | .missedFrameDeadline _ => true
  | .badCheckFrame t _ f _ => elapsedOk t && f.wellFormed
  | .wrongLengthFrame t _ f _ => elapsedOk t && f.wellFormed && isWrongLength f
  | .linkCheckFrame t _ f => elapsedOk t && f.wellFormed && decide (frameKind f = .linkCheck)
  | .otherFrame t _ f => elapsedOk t && f.wellFormed && decide (frameKind f = .other)
  | .powerOnReset _ _ => true
  | .p2LinkChange t _ => elapsedOk t
  | .p1LinkChange t _ => elapsedOk t
  | .tableCheckComplete _ => true
  | .stationMode _ => true
  | .stationReset => true
  | .statusRead _ _ _ => true
  | .tableWrite _ _ _ _ => true
  | .tableClear _ => true
  | .tableCheck _ _ => true
  | .tableActivate _ => true
  | .tableRead _ _ _ => true
  | .tipSet _ _ => true
  | .tipRemove _ => true
  | .portSet _ _ _ => true
  | .armTipSet _ _ => true
  | .triggerArm _ => true
  | .triggerDisarm _ => true
  | .featureOpen _ => true
  | .featureClose _ => true
  | .workpieceSet _ => true
  | .workpieceClear => true
  | .thermalAdvance _ => true
  | .zoneClaim _ _ => true
  | .zoneRelease _ _ => true
  | .holdRelease _ _ => true
  | .changeBegin _ _ _ => true
  | .changeAbort _ => true
  | .eventPriority _ _ => true
  | .reportLevel _ => true
  | .powerOnResetEnd => true

end Sys2Proof
end

