-- ==== Sys2Proof/Decode.lean ====
section
/-! DEFINITION. The block fetches no words and no row of spec/opcode_table.json carries bits ("fields" is empty in all
48), so no word spells a command. -/
namespace Sys2Proof

/-- The command a table word spells: none, for no row of the table gives bits. -/
def decodeTableWord (_nbits _w : Nat) : Option Instr := none

end Sys2Proof
end

