-- ==== Sys2Proof/Machine/State.lean ====
section
/-! DEFINITION. The state of the block as plain data, block by block (00, Block overview), its value right after
power-on reset, and the reasons a step can stop. -/
namespace Sys2Proof.Machine

/-! ## Shapes -/

/-- One value for each arm. -/
structure PerArm (α : Type) where
  a : α
  b : α
deriving DecidableEq, Repr

/-- One value for each table kind (R119). -/
structure PerKind (α : Type) where
  slotMap       : α
  armMapA       : α
  armMapB       : α
  channelTable  : α
  zoneTable     : α
  stationRecord : α
deriving DecidableEq, Repr

/-- Three coordinates, exact integers. -/
structure Vec3 where
  x : Int
  y : Int
  z : Int
deriving DecidableEq, Repr

/-- The words of one bank, sparse (R119, R120). -/
abbrev Bank := Memory 32

/-! ## Ring Interface Unit -/

/-- The station state (R146). -/
inductive StationState
  | unaddressed
  | config
  | run
deriving DecidableEq, Repr

/-- A frame as it left a port: its bytes, and whether its frame check is good (R136, R137). -/
structure Sent where
  frame   : RingFrame
  checkOk : Bool
deriving DecidableEq, Repr

/-- A mounted tip and the offset it had before the TIP_SET that a frame carried (R15). -/
structure FormerOffset where
  tip    : Nat
  offset : Vec3
deriving DecidableEq, Repr

/-- The frame in flight (R138), with what its return pass takes over from its outbound pass: the window offset (R133, R155)
and, where the frame carried a TIP_SET of an arm's mounted tip, the offset that pass still uses (R15; log 23). -/
structure InFlight where
  number : BitVec 16
  sync   : BitVec 64
  window : Nat
  former : PerArm (Option FormerOffset)
deriving DecidableEq, Repr

/-- State of the RIU (07). `record` is the STATION RECORD bank in force since the latest return pass (R133; log 26). `sent1`
and `sent2` are the model's two outputs: what the latest frame command sent out at P1 and at P2 (log 21). -/
structure Riu where
  inReset      : Bool
  station      : StationState
  address      : Option Byte
  clock        : BitVec 64
  clockAtAlign : BitVec 64
  frameAtAlign : BitVec 16
  inFlight     : Option InFlight
  missed       : Nat
  deadline     : Option (BitVec 64)
  ringLoss     : Bool
  p1Up         : Bool
  p2Up         : Bool
  turned       : Nat
  record       : Option Bank
  sent1        : Option Sent
  sent2        : Option Sent
deriving DecidableEq, Repr

/-! ## Request Unit -/

/-- The ten results of a reply (R158). -/
inductive Result
  | done
  | accepted
  | busy
  | wrongState
  | badParam
  | notReady
  | deadlock
  | refused
  | wrongStation
  | unknownCode
deriving DecidableEq, Repr

/-- A request slot as read (R154, 10.2): station address, code, tag, target bytes 4 to 7, parameter words. -/
structure RequestSlot where
  address : Byte
  code    : Byte
  tag     : BitVec 16
  target  : Byte
  second  : Byte
  third   : Byte
  fourth  : Byte
  params  : ParamWords
deriving DecidableEq, Repr

/-- The exchange of one frame: what the reply slot will carry (R155). -/
structure Exchange where
  tag    : BitVec 16
  code   : Byte
  result : Option Result
  data   : List Word
deriving DecidableEq, Repr

/-- State of the RQU within a frame (08): the exchange, and a request handed on and not yet taken (log 6). -/
structure Rqu where
  exchange : Exchange
  awaiting : Option RequestSlot
deriving DecidableEq, Repr

/-! ## Table Store -/

/-- The staging bank's state (R120). CHECKING holds the expected sum (R123), the words left to examine (R124), and
`fresh`: the return pass of the frame that carried the request is still to come (R124). -/
inductive StagingState
  | empty
  | unchecked
  | checking (expected : Word) (left : Nat) (fresh : Bool)
  | passed
  | failed
deriving DecidableEq, Repr

/-- The last check result (R129). -/
inductive CheckResult
  | passed
  | failedSum (sum : Word)
  | failedContent (offset : Nat)
deriving DecidableEq, Repr

/-- One table kind's state (R120). -/
structure TableState where
  staging    : Bank
  state      : StagingState
  active     : Option Bank
  generation : BitVec 16
  lastResult : Option CheckResult
deriving DecidableEq, Repr

/-! ## Correction Engine -/

/-- Why a sample is invalid (R3). -/
inductive ReaderReason
  | noSlot
  | notWritten
  | scaleFault
  | notReferenced
deriving DecidableEq, Repr

/-- A tip as a history entry or a point names it: id and revision. -/
structure TipRef where
  id       : Nat
  revision : Byte
deriving DecidableEq, Repr

/-- One entry of an arm's tip history (R24). -/
structure HistoryEntry where
  t          : Vec3
  capture    : BitVec 64
  flags      : BitVec 6
  tip        : Option TipRef
  generation : BitVec 16
  epoch      : BitVec 16
deriving DecidableEq, Repr

/-- The ARM MAP bank the blocks use for an arm, with its generation (R5, R133; log 8). -/
structure ArmInForce where
  bank       : Bank
  generation : BitVec 16
deriving DecidableEq, Repr

/-- One arm's state of the CEN (01, State of the Correction Engine after reset). -/
structure CenArm where
  history   : List HistoryEntry
  satSeen   : Bool
  rangeSeen : Bool
  reader    : Bool
  limit     : BitVec 6
  inForce   : Option ArmInForce
deriving DecidableEq, Repr

/-! ## Thermal Unit -/

/-- The four channel states (section 2.4). -/
inductive ChannelState
  | noData
  | valid
  | held
  | failed
deriving DecidableEq, Repr

/-- Why a sample was rejected (R31). -/
inductive RejectReason
  | status
  | range
  | rate
deriving DecidableEq, Repr

/-- A channel's filter state y in 1/256 m°C (R37), with the last accepted value and its time (R32). -/
structure ChannelFilter where
  y    : Int
  last : Int
  time : BitVec 64
deriving DecidableEq, Repr

/-- One temperature channel (02). -/
structure Channel where
  state   : ChannelState
  filter  : Option ChannelFilter
  count   : Nat
  reason  : Option RejectReason
  counter : Option (BitVec 4)
deriving DecidableEq, Repr

/-- A temperature with the marks that travel with it (R40, R42). -/
structure Temperature where
  value : Int
  stale : Bool
  clamp : Bool
deriving DecidableEq, Repr

/-- One aggregate (R38, R39). -/
structure Aggregate where
  temp      : Temperature
  everFresh : Bool
deriving DecidableEq, Repr

/-- An arm's applied thermal set (R42). -/
structure AppliedSet where
  scaleX    : Temperature
  scaleY    : Temperature
  scaleZ    : Temperature
  workpiece : Temperature
  air       : Temperature
  epoch     : BitVec 16
deriving DecidableEq, Repr

/-- One arm's state of the THU. -/
structure ThuArm where
  applied   : AppliedSet
  countdown : Option Nat
  deferred  : Bool
deriving DecidableEq, Repr

/-- State of the THU (02). `restart` holds a CHANNEL TABLE activation until the next return pass (R47). -/
structure Thu where
  channels   : List Channel
  restart    : Bool
  aggregates : List Aggregate
  arm        : PerArm ThuArm
deriving DecidableEq, Repr

/-! ## Touch Capture Unit -/

/-- The latch record (R50). `contact` is t', exact and not reduced (log 10). -/
structure Latch where
  trg         : BitVec 64
  contact     : Int
  seq         : BitVec 16
  age         : Nat
  double      : Bool
  disarmAfter : Bool
  feature     : Byte
deriving DecidableEq, Repr

/-- The five trigger states (section 3.2). -/
inductive Trigger
  | disarmed
  | armed
  | latched (l : Latch)
  | rearm (left : Nat)
  | suppressed
deriving DecidableEq, Repr

/-- What the latest return pass's resolution step found due for an arm (R55, R57; log 2). -/
inductive TouchDue
  | none
  | resolve
  | late
deriving DecidableEq, Repr

/-- A point record (R64). -/
structure Point where
  arm        : Arm
  seq        : BitVec 16
  tip        : Option TipRef
  feature    : Byte
  epoch      : BitVec 16
  generation : BitVec 16
  trg        : BitVec 64
  pos        : Vec3
  flags      : BitVec 10
deriving DecidableEq, Repr

/-- The workpiece record (R71). -/
structure Workpiece where
  origin      : Vec3
  coefficient : Nat
  valid       : Bool
deriving DecidableEq, Repr

/-- One arm's state of the TCU. -/
structure TcuArm where
  trigger     : Trigger
  nextSeq     : BitVec 16
  bracketOpen : Bool
  feature     : Byte
  touchDue    : TouchDue
deriving DecidableEq, Repr

/-- State of the TCU (03). `drainDue` holds the window offset of a return pass that has not drained yet (log 2). -/
structure Tcu where
  arm       : PerArm TcuArm
  queue     : List Point
  workpiece : Workpiece
  drainDue  : Option Nat
deriving DecidableEq, Repr

/-! ## Probe Change Controller -/

/-- A tip's location (R73). -/
inductive TipLocation
  | absent
  | port (p : Nat)
  | onArm (x : Arm)
  | unknown
deriving DecidableEq, Repr

/-- A tip record (R72). -/
structure Tip where
  present  : Bool
  offset   : Vec3
  radius   : Nat
  latency  : Nat
  code     : BitVec 16
  airTemp  : Nat
  revision : Byte
  location : TipLocation
deriving DecidableEq, Repr

/-- A rack port's state (R76). -/
inductive PortState
  | disabled
  | empty
  | holds (tip : Nat)
  | unverified
deriving DecidableEq, Repr

/-- The state of a change session (R80). -/
inductive SessionState
  | idle
  | waitZone
  | drop
  | pick
  | fault
deriving DecidableEq, Repr

/-- Why a session is in FAULT (R80). -/
inductive FaultCause
  | timeout
  | ring
  | identity
deriving DecidableEq, Repr

/-- The change session record (R80). -/
structure Session where
  state    : SessionState
  dropTip  : Option Nat
  dropPort : Option Nat
  pickTip  : Option Nat
  pickPort : Option Nat
  timer    : Option Nat
  fault    : Option FaultCause
deriving DecidableEq, Repr

/-- A probe head's state (R79). -/
inductive HeadState
  | seated
  | opened
  | fault
deriving DecidableEq, Repr

/-- One arm's state of the PCC. `changeDue`: the latest pass's readings complete the session's step (log 2). -/
structure PccArm where
  session    : Session
  consistent : Bool
  headLast   : Option HeadState
  codeLast   : BitVec 16
  changeDue  : Bool
deriving DecidableEq, Repr

/-- State of the PCC (04): tip `t` is entry `t - 1`, port `p` is entry `p`. -/
structure Pcc where
  tips      : List Tip
  ports     : List PortState
  arm       : PerArm PccArm
  occupancy : Option (BitVec 12)
deriving DecidableEq, Repr

/-! ## Motion Guard -/

/-- A zone's reservation (R101). The waiter of a held zone is always the arm that does not hold it. -/
inductive Zone
  | free
  | held (by_ : Arm) (releasing waited : Bool)
deriving DecidableEq, Repr

/-- An inside record (R100). -/
inductive Inside
  | outside
  | inside
  | unknown
deriving DecidableEq, Repr

/-- The twelve hold causes (R110). -/
inductive Cause
  | mode
  | ring
  | reader
  | intrusion
  | limit
  | head
  | change
  | abort
  | numeric
  | mapRange
  | thermal
  | pointLost
deriving DecidableEq, Repr

/-- One arm's state of the MGD; the sets are numbered as 10.2 numbers their bits. -/
structure MgdArm where
  inside  : List Inside
  latches : BitVec 8
  causes  : BitVec 12
  creep   : BitVec 9
deriving DecidableEq, Repr

/-- State of the MGD (05). -/
structure Mgd where
  zones : List Zone
  arm   : PerArm MgdArm
deriving DecidableEq, Repr

/-! ## Event Unit -/

/-- Why a point was lost (R57, R66). -/
inductive LostReason
  | noPosition
  | queueFull
deriving DecidableEq, Repr

/-- The detail of a posting (9.1, 10.3). -/
inductive Detail
  | zones (zs : BitVec 8)
  | limits (pairs : BitVec 6)
  | reader (r : ReaderReason)
  | done (tip : Option Nat)
  | fault (cause : FaultCause) (expected identified : Option Nat) (code : BitVec 16)
  | furtherFault (kept new : FaultCause)
  | aborted (left : SessionState)
  | head (state : Option HeadState) (code : BitVec 16)
  | cancelled
  | granted (zone : Nat)
  | released (zone : Nat)
  | pointLost (x : Arm) (seq : BitVec 16) (r : LostReason)
  | stray (x : Arm)
  | numeric (x : Arm) (saturated beyond : Bool) (satAxes beyondAxes : BitVec 3)
  | channelFailed (channel : Nat) (r : RejectReason)
  | channelRecovered (channel : Nat)
  | aggregateStale (index : Nat)
  | missing (port tip : Nat)
  | occupied (port : Nat)
  | check (kind : TableKind) (r : CheckResult)
  | activated (kind : TableKind) (generation : BitVec 16)
  | ringLost
  | ringRestored
deriving DecidableEq, Repr

/-- The seventeen event sources (9.1). -/
inductive EventSource
  | intrusion (x : Arm)
  | limit (x : Arm)
  | reader (x : Arm)
  | change (x : Arm)
  | zone (x : Arm)
  | pointLost
  | strayTrigger
  | numeric
  | thermal
  | rack
  | table
  | ring
deriving DecidableEq, Repr

/-- One source's state: pending exactly when it has a detail (R164). -/
structure SourceState where
  detail   : Option Detail
  overrun  : Bool
  priority : Nat
deriving DecidableEq, Repr

/-- State of the EVU (09). -/
structure Evu where
  sources     : List SourceState
  reportLevel : Nat
deriving DecidableEq, Repr

/-! ## The whole state -/

/-- The state of the block, one field per block of the part, and the queue of the commands that wait. -/
structure State where
  riu     : Riu
  rqu     : Rqu
  tbs     : PerKind TableState
  cen     : PerArm CenArm
  thu     : Thu
  tcu     : Tcu
  pcc     : Pcc
  mgd     : Mgd
  evu     : Evu
  pending : List Instr
deriving DecidableEq, Repr

/-- The spec names no condition that stops the part (INVENTORY, Faults; log 20): there is no fault. -/
inductive Fault
deriving DecidableEq, Repr

/-- Why a command has no meaning. -/
inductive Refusal
  /-- A row of the table without a meaning yet; raised by no arm of this model. Safe: the machine stops. -/
  | notModelled (mnemonic : String)
deriving DecidableEq, Repr

/-! ## Reset values -/

/-- A temperature's reset value: 20,000 m°C, STALE, CLAMP clear (R39, R42). -/
def Temperature.reset : Temperature := ⟨20000, true, false⟩

/-- A channel's reset value (R29, R31, R33). -/
def Channel.reset : Channel := ⟨.noData, none, 0, none, none⟩

/-- An aggregate's reset value (R39). -/
def Aggregate.reset : Aggregate := ⟨Temperature.reset, false⟩

/-- An applied set's reset value (R42). -/
def AppliedSet.reset : AppliedSet :=
  ⟨Temperature.reset, Temperature.reset, Temperature.reset, Temperature.reset, Temperature.reset, 0⟩

/-- A table kind's power-on value (R120). -/
def TableState.reset : TableState := ⟨[], .empty, none, 0, none⟩

/-- An idle session (R80). -/
def Session.idle : Session := ⟨.idle, none, none, none, none, none, none⟩

/-- A tip record's power-on value (R72). -/
def Tip.reset : Tip := ⟨false, ⟨0, 0, 0⟩, 0, 0, 0, 0, 0, .absent⟩

/-- The CEN's reset value for one arm (01, after R26). -/
def CenArm.reset : CenArm := ⟨[], false, false, false, 0, none⟩

/-- The THU's reset value for one arm (02, after R47). -/
def ThuArm.reset : ThuArm := ⟨AppliedSet.reset, none, false⟩

/-- The TCU's reset value for one arm (03, after R71). -/
def TcuArm.reset : TcuArm := ⟨.disarmed, 0, false, 0, .none⟩

/-- The PCC's power-on value for one arm (R79, R80, R93). -/
def PccArm.reset : PccArm := ⟨Session.idle, true, none, 0, false⟩

/-- The MGD's power-on value for one arm (05, after R118). -/
def MgdArm.reset : MgdArm := ⟨List.replicate 8 .unknown, 0, 0, 0⟩

/-- The RIU right after power-on reset (R152); the link states are the model's choice (log 4). -/
def Riu.reset : Riu :=
  { inReset := false, station := .unaddressed, address := none, clock := 0, clockAtAlign := 0, frameAtAlign := 0,
    inFlight := none, missed := 0, deadline := none, ringLoss := false, p1Up := true, p2Up := true, turned := 0,
    record := none, sent1 := none, sent2 := none }

/-- The RQU holds nothing between frames (08). -/
def Rqu.reset : Rqu := ⟨⟨0, 0, none, []⟩, none⟩

/-- The TBS after power-on reset (R120). -/
def tbsReset : PerKind TableState :=
  ⟨TableState.reset, TableState.reset, TableState.reset, TableState.reset, TableState.reset, TableState.reset⟩

/-- The THU after either reset (02, after R47). -/
def Thu.reset : Thu :=
  ⟨List.replicate 24 Channel.reset, false, List.replicate 8 Aggregate.reset, ⟨ThuArm.reset, ThuArm.reset⟩⟩

/-- The TCU after power-on reset (03, after R71). -/
def Tcu.reset : Tcu := ⟨⟨TcuArm.reset, TcuArm.reset⟩, [], ⟨⟨0, 0, 0⟩, 0, false⟩, none⟩

/-- The PCC after power-on reset (R72, R76, R79, R80, R93). -/
def Pcc.reset : Pcc :=
  ⟨List.replicate 32 Tip.reset, List.replicate 12 .disabled, ⟨PccArm.reset, PccArm.reset⟩, none⟩

/-- The MGD after power-on reset (05, after R118). -/
def Mgd.reset : Mgd := ⟨List.replicate 8 .free, ⟨MgdArm.reset, MgdArm.reset⟩⟩

/-- The EVU after power-on reset (R171). -/
def Evu.reset : Evu := ⟨Config.resetPriorities.map (fun p => ⟨none, false, p⟩), 0⟩

/-- The block right after power-on reset has ended (R152), its queue empty. -/
def State.reset : State :=
  { riu := Riu.reset, rqu := Rqu.reset, tbs := tbsReset, cen := ⟨CenArm.reset, CenArm.reset⟩, thu := Thu.reset,
    tcu := Tcu.reset, pcc := Pcc.reset, mgd := Mgd.reset, evu := Evu.reset, pending := [] }

end Sys2Proof.Machine
end

