-- ==== Sys2Proof/Machine/Numbers.lean ====
section
/-! DEFINITION. The roundings of 00 (Rounding terms), saturation (R18), and fields of less than a word. -/
namespace Sys2Proof.Machine

/-- The quotient rounded to nearest, a value exactly halfway going away from zero: `round(n / d)`. -/
def roundDiv (n : Int) (d : Nat) : Int :=
  let q : Int := (((2 * n.natAbs + d) / (2 * d) : Nat) : Int)
  if n < 0 then -q else q

/-- The four output rounding modes (R17), as the STATION RECORD selects them. -/
inductive Rounding
  | nearestEven
  | towardZero
  | towardPlus
  | towardMinus
deriving DecidableEq, Repr

/-- The mode a STATION RECORD word selects (10.6); the content rules admit no other word. -/
def roundingOf (w : Nat) : Rounding :=
  if w = 1 then .towardZero else if w = 2 then .towardPlus else if w = 3 then .towardMinus else .nearestEven

/-- A length in nm divided by 10 into output units, rounded by the mode (R17). -/
def roundOutput (m : Rounding) (t : Int) : Int :=
  let q := t / 10
  let r := t % 10
  match m with
  | .nearestEven => if r < 5 then q else if 5 < r then q + 1 else if q % 2 = 0 then q else q + 1
  | .towardZero => if 0 ≤ t ∨ r = 0 then q else q + 1
  | .towardPlus => if r = 0 then q else q + 1
  | .towardMinus => q

/-- Saturation to the signed 32-bit range (R18). -/
def saturate32 (v : Int) : Int := if v < -2147483648 then -2147483648 else if 2147483647 < v then 2147483647 else v

/-- One output coordinate: rounded, then saturated. -/
def outputCoord (m : Rounding) (t : Int) : Int := saturate32 (roundOutput m t)

/-- Whether the rounded coordinate lies beyond the signed 32-bit range (R18). -/
def outputSaturates (m : Rounding) (t : Int) : Bool := decide (saturate32 (roundOutput m t) ≠ roundOutput m t)

/-- A number from its bits, bit 0 first. -/
def bitsNat : List Bool → Nat
  | [] => 0
  | b :: bs => (if b then 1 else 0) + 2 * bitsNat bs

/-- The signed value of the low `w` bits of a number. -/
def signedBits (w v : Nat) : Int := (BitVec.ofNat w v).toInt

/-- A word that holds a signed field of `w` bits whose bits above the width copy its sign bit (R126). -/
def signCopied (w : Nat) (v : Word) : Bool := decide ((BitVec.ofInt 32 (signedBits w v.toNat)) = v)

/-- Bits `lo .. lo + w - 1` of a number, unsigned. -/
def bitField (v lo w : Nat) : Nat := (v / 2 ^ lo) % 2 ^ w

/-- The words from an offset on as one bit string: bit `b` lies in bit `b mod 32` of word `b / 32` (10.2). -/
def wordString : List Word → Nat
  | [] => 0
  | w :: ws => w.toNat + 2 ^ 32 * wordString ws

/-- `0 .. n-1` with the chosen indexes first, in the order chosen, and the others after them, rising (log 5). -/
def arrange (n : Nat) (chosen : List Nat) : List Nat :=
  let first := (chosen.filter (fun i => decide (i < n))).eraseDups
  first ++ (List.range n).filter (fun i => !(first.contains i))

end Sys2Proof.Machine
end

