-- ==== Sys2Proof/Machine/Flags.lean ====
section
/-! DEFINITION. Every set of flags of the part with the bits 10_frame_and_record_formats.md gives it: position flags,
point flags, hold causes, creep entries, limit pairs, axes, the hold mask and the guard word. -/
namespace Sys2Proof.Machine

/-- Position block flags (10.3): VALID, BEYOND_MAP, SATURATED, NO_TIP, THERMAL_STALE, THERMAL_CLAMP. -/
def positionFlags (valid beyond saturated noTip stale clamp : Bool) : BitVec 6 :=
  BitVec.ofNat 6 (bitsNat [valid, beyond, saturated, noTip, stale, clamp])

/-- BEYOND_MAP of a history entry's flags. -/
def flagBeyond (f : BitVec 6) : Bool := f.getLsbD 1
/-- THERMAL_STALE of a history entry's flags. -/
def flagStale (f : BitVec 6) : Bool := f.getLsbD 4
/-- THERMAL_CLAMP of a history entry's flags. -/
def flagClamp (f : BitVec 6) : Bool := f.getLsbD 5

/-- A set of axes, bit 0 X, 1 Y, 2 Z (10.3, NUMERIC). -/
def axisSet (x y z : Bool) : BitVec 3 := BitVec.ofNat 3 (bitsNat [x, y, z])

/-- The limit condition: X low, X high, Y low, Y high, Z low, Z high (10.3, LIMIT_x). -/
def limitPairs (xl xh yl yh zl zh : Bool) : BitVec 6 := BitVec.ofNat 6 (bitsNat [xl, xh, yl, yh, zl, zh])

/-- The bit of a hold cause in a cause set (10.2). -/
def causeBit : Cause → Nat
  | .mode => 0
  | .ring => 1
  | .reader => 2
  | .intrusion => 3
  | .limit => 4
  | .head => 5
  | .change => 6
  | .abort => 7
  | .numeric => 8
  | .mapRange => 9
  | .thermal => 10
  | .pointLost => 11

/-- The set holding one cause. -/
def causeOnly (c : Cause) : BitVec 12 := BitVec.twoPow 12 (causeBit c)

/-- Whether a cause is in a set. -/
def hasCause (cs : BitVec 12) (c : Cause) : Bool := cs.getLsbD (causeBit c)

/-- A set with a cause added (R110). -/
def addCause (cs : BitVec 12) (c : Cause) : BitVec 12 := cs ||| causeOnly c

/-- A set of causes from its members. -/
def causesOf : List Cause → BitVec 12
  | [] => 0
  | c :: cs => addCause (causesOf cs) c

/-- The bit of creep entry LIMIT (10.2); INTRUSION(z) is bit z. -/
def creepLimit : Nat := 8

/-- The zones of a creep set, bits 0 to 7. -/
def creepZones (c : BitVec 9) : BitVec 8 := c.setWidth 8

/-- Whether creep entry LIMIT stands. -/
def hasCreepLimit (c : BitVec 9) : Bool := c.getLsbD creepLimit

/-- A creep set from its zones and its LIMIT entry. -/
def creepOf (zones : BitVec 8) (limit : Bool) : BitVec 9 :=
  zones.setWidth 9 ||| (if limit then BitVec.twoPow 9 creepLimit else 0)

/-- A set of zones from a test per zone. -/
def zoneSet (p : Nat → Bool) : BitVec 8 := BitVec.ofNat 8 (bitsNat ((List.range 8).map p))

/-- The guard word (R114, 10.2): arm A HOLD, CREEP, arm B HOLD, CREEP. -/
def guardBits (holdA creepA holdB creepB : Bool) : Nat := bitsNat [holdA, creepA, holdB, creepB]

/-- The four conditions a hold mask covers (R6), at their bits of the mask word (10.6). -/
inductive MaskBit
  | numeric
  | mapRange
  | thermal
  | pointLost
deriving DecidableEq, Repr

/-- The bit of a mask condition (10.6, word 39). -/
def maskIndex : MaskBit → Nat
  | .numeric => 0
  | .mapRange => 1
  | .thermal => 2
  | .pointLost => 3

/-- Point flags (10.3): UNBRACKETED, GAP, LATE, DOUBLE, BEYOND_MAP, SATURATED, THERMAL_STALE, THERMAL_CLAMP, REQUALIFY,
NO_WORKPIECE. -/
def pointFlags (unbracketed gap late double beyond saturated stale clamp requalify noWorkpiece : Bool) : BitVec 10 :=
  BitVec.ofNat 10 (bitsNat [unbracketed, gap, late, double, beyond, saturated, stale, clamp, requalify, noWorkpiece])

end Sys2Proof.Machine
end

