-- ==== Sys2Proof/Machine/Operands.lean ====
section
/-! DEFINITION. The fields of the tables' words (10.6), of the field slots (10.4) and of the request slot (10.2), and
the codes that name things in targets and parameters. -/
namespace Sys2Proof.Machine

/-! ## Codes (10.2) -/

/-- An arm target: 0 A, 1 B; any other value names no arm (R173). -/
def armOf (v : Byte) : Option Arm := if v = 0 then some .a else if v = 1 then some .b else none

/-- The code of an arm. -/
def armCode : Arm → Nat
  | .a => 0
  | .b => 1

/-- The other arm. -/
def otherArm : Arm → Arm
  | .a => .b
  | .b => .a

/-- A table kind's code. -/
def kindOf (v : Byte) : Option TableKind :=
  if v = 1 then some .slotMap else if v = 2 then some (.armMap .a) else if v = 3 then some (.armMap .b)
  else if v = 4 then some .channelTable else if v = 5 then some .zoneTable else if v = 6 then some .stationRecord
  else none

/-- The code of a table kind. -/
def kindCode : TableKind → Nat
  | .slotMap => 1
  | .armMap .a => 2
  | .armMap .b => 3
  | .channelTable => 4
  | .zoneTable => 5
  | .stationRecord => 6

/-- The capacity of a kind in words (R119). -/
def capacity : TableKind → Nat
  | .slotMap => 48
  | .armMap _ => 896
  | .channelTable => 192
  | .zoneTable => 64
  | .stationRecord => 16

/-- The six kinds. -/
def allKinds : List TableKind :=
  [.slotMap, .armMap .a, .armMap .b, .channelTable, .zoneTable, .stationRecord]

/-- A parameter field that is laid out as a byte: bits 0 to 7 of its word, the bits above not read (R173; log 11). -/
def paramByte (w : Word) : Nat := w.toNat % 256

/-! ## Words of a bank -/

/-- A word as an unsigned number. -/
def wordNat (b : Bank) (off : Nat) : Nat := (Memory.read b off).toNat

/-- A word as a signed number. -/
def wordInt (b : Bank) (off : Nat) : Int := (Memory.read b off).toInt

/-- A signed 40-bit field with two words to itself (10). -/
def word40 (b : Bank) (off : Nat) : Int := signedBits 40 (wordNat b off + 2 ^ 32 * wordNat b (off + 1))

/-- A signed 24-bit field in one word. -/
def word24 (b : Bank) (off : Nat) : Int := signedBits 24 (wordNat b off)

/-- Eight words from an offset on, as one bit string. -/
def words8 (b : Bank) (off : Nat) : Nat :=
  wordString ((List.range 8).map (fun i => Memory.read b (off + i)))

/-! ## STATION RECORD (16 words) -/

/-- The station-wide settings (R127, 10.6). -/
structure StationRecord where
  window       : Nat
  period       : Nat
  ringLimit    : Nat
  rounding     : Rounding
  pointSlots   : Nat
  latchLimit   : Nat
  stepTimeout  : Nat
  autoInterval : Nat
  band         : Nat
deriving DecidableEq, Repr

/-- The fields of a STATION RECORD bank; a ring-loss limit of 0 selects 8 (R127). -/
def stationRecordOf (b : Bank) : StationRecord :=
  { window := wordNat b 0, period := wordNat b 1,
    ringLimit := if wordNat b 2 = 0 then 8 else wordNat b 2,
    rounding := roundingOf (wordNat b 3), pointSlots := wordNat b 4, latchLimit := wordNat b 5,
    stepTimeout := wordNat b 6, autoInterval := wordNat b 7, band := wordNat b 8 }

/-! ## SLOT MAP (48 words) -/

/-- A field slot by kind and which one (R127). -/
inductive SlotName
  | armSample (x : Arm)
  | tempModule (m : Nat)
  | probeStatus (x : Arm)
  | rackStatus
deriving DecidableEq, Repr

/-- The slot an entry's kind and instance words name; none for an unused entry or an undefined code. -/
def slotNameOf (kind which : Nat) : Option SlotName :=
  if kind = 1 then (if which = 0 then some (.armSample .a) else if which = 1 then some (.armSample .b) else none)
  else if kind = 2 then (if which < 6 then some (.tempModule which) else none)
  else if kind = 3 then (if which = 0 then some (.probeStatus .a) else if which = 1 then some (.probeStatus .b) else none)
  else if kind = 4 then (if which = 0 then some .rackStatus else none)
  else none

/-- A slot's length in bytes, by its kind code (R127). -/
def slotLength (kind : Nat) : Nat :=
  if kind = 1 then 24 else if kind = 2 then 20 else if kind = 3 then 8 else if kind = 4 then 4 else 0

/-- The used entries of a SLOT MAP bank, in entry order: the slot and its byte offset. -/
def slotEntries (b : Bank) : List (SlotName × Nat) :=
  (List.range 16).filterMap (fun e =>
    (slotNameOf (wordNat b (3 * e)) (wordNat b (3 * e + 1))).map (fun n => (n, wordNat b (3 * e + 2))))

/-- The byte offset at which a SLOT MAP bank places a slot. -/
def slotOffset (b : Bank) (n : SlotName) : Option Nat :=
  ((slotEntries b).find? (fun e => decide (e.1 = n))).map (·.2)

/-! ## ARM MAP (896 words) -/

/-- One axis of the arm record (R5). -/
structure AxisRecord where
  pitch  : Nat
  zero   : Int
  alpha  : Nat
  lo     : Int
  hi     : Int
  offset : Int
  sign   : Int
deriving DecidableEq, Repr

/-- Axis `a` (0 X, 1 Y, 2 Z) of the arm record, words `11a` to `11a + 10`. -/
def axisRecord (b : Bank) (a : Nat) : AxisRecord :=
  { pitch := wordNat b (11 * a), zero := word40 b (11 * a + 1), alpha := wordNat b (11 * a + 3),
    lo := word40 b (11 * a + 4), hi := word40 b (11 * a + 6), offset := word40 b (11 * a + 8),
    sign := wordInt b (11 * a + 10) }

/-- S_XY, S_XZ and S_YZ, in nrad. -/
def squareXY (b : Bank) : Int := word24 b 33
def squareXZ (b : Bank) : Int := word24 b 34
def squareYZ (b : Bank) : Int := word24 b 35

/-- The envelope radius (R99). -/
def envelope (b : Bank) : Int := (wordNat b 36 : Int)

/-- Whether the trigger polarity is RISING (R48). -/
def polarityRising (b : Bank) : Bool := decide (wordNat b 37 = 0)

/-- The rearm interval (R52). -/
def rearmInterval (b : Bank) : Nat := wordNat b 38

/-- A bit of the hold mask (R6). -/
def maskBit (b : Bank) (m : MaskBit) : Bool := (Memory.read b 39).getLsbD (maskIndex m)

/-- The first word of error table `i`: E_XX .. E_ZZ are 0 to 8, A_X .. A_Z are 9 to 11 (10.6). -/
def tableBase (i : Nat) : Nat := 68 + 69 * i

/-- A table's start (R8). -/
def tableStart (b : Bank) (i : Nat) : Int := word40 b (tableBase i)

/-- A table's node pitch; a pitch word of 0 selects 1,000,000 nm (R8). -/
def tablePitch (b : Bank) (i : Nat) : Nat :=
  if wordNat b (tableBase i + 2) = 0 then 1000000 else wordNat b (tableBase i + 2)

/-- A table's node count; a count word of 0 selects 2 (R8). -/
def tableCount (b : Bank) (i : Nat) : Nat :=
  if wordNat b (tableBase i + 3) = 0 then 2 else wordNat b (tableBase i + 3)

/-- Node `n` of a table. -/
def tableNode (b : Bank) (i n : Nat) : Int := word24 b (tableBase i + 4 + n)

/-! ## CHANNEL TABLE (192 words) -/

/-- A channel record (R30); `role` is the index 0 to 7 of the aggregate the channel contributes to, none for NONE. -/
structure ChannelRecord where
  role      : Option Nat
  module    : Nat
  source    : Nat
  low       : Int
  high      : Int
  maxRate   : Nat
  shift     : Nat
  holdLimit : Nat
deriving DecidableEq, Repr

/-- Channel `c`'s record, words `8c` to `8c + 7`. -/
def channelRecord (b : Bank) (c : Nat) : ChannelRecord :=
  { role := if wordNat b (8 * c) = 0 then none else some (wordNat b (8 * c) - 1),
    module := wordNat b (8 * c + 1), source := wordNat b (8 * c + 2), low := wordInt b (8 * c + 3),
    high := wordInt b (8 * c + 4), maxRate := wordNat b (8 * c + 5), shift := wordNat b (8 * c + 6),
    holdLimit := wordNat b (8 * c + 7) }

/-! ## ZONE TABLE (64 words) -/

/-- A zone record (R98). -/
structure ZoneRecord where
  lo      : Vec3
  hi      : Vec3
  enabled : Bool
deriving DecidableEq, Repr

/-- Zone `z`'s record, words `8z` to `8z + 7` read as one bit string (10.6). -/
def zoneRecord (b : Bank) (z : Nat) : ZoneRecord :=
  let s := words8 b (8 * z)
  { lo := ⟨signedBits 40 (bitField s 0 40), signedBits 40 (bitField s 40 40), signedBits 40 (bitField s 80 40)⟩,
    hi := ⟨signedBits 40 (bitField s 120 40), signedBits 40 (bitField s 160 40), signedBits 40 (bitField s 200 40)⟩,
    enabled := decide (bitField s 240 8 = 1) }

/-! ## Field slots (10.4) -/

/-- The written mark: bit 0 of byte 0 of the slot. -/
def slotWritten (p : Memory 8) (off : Nat) : Bool := (Memory.read p off).getLsbD 0

/-- A written arm sample: counts and capture time. -/
structure ArmSample where
  counts  : Vec3
  capture : BitVec 64
deriving DecidableEq, Repr

/-- What an arm sample slot holds on a pass (R3): a valid sample, or the reason it is invalid with the capture time the
position block shows (R4). -/
inductive SampleReading
  | valid (s : ArmSample)
  | invalid (r : ReaderReason) (capture : BitVec 64)
deriving DecidableEq, Repr

/-- Read an arm sample, the tests in the order of R3; an unknown status code is SCALE_FAULT. -/
def readSample (map : Option Bank) (p : Memory 8) (x : Arm) : SampleReading :=
  match map.bind (fun b => slotOffset b (.armSample x)) with
  | none => .invalid .noSlot 0
  | some off =>
    if slotWritten p off then
      let capture := BitVec.ofNat 64 (Memory.readLE p (off + 16) 8)
      let status := Memory.read p (off + 1)
      if status = 2 then .invalid .notReferenced capture
      else if status = 0 then
        .valid ⟨⟨signedBits 32 (Memory.readLE p (off + 4) 4), signedBits 32 (Memory.readLE p (off + 8) 4),
                 signedBits 32 (Memory.readLE p (off + 12) 4)⟩, capture⟩
      else .invalid .scaleFault capture
    else .invalid .notWritten 0

/-- A temperature reading (R28): value, whether the status is OK, update counter. -/
structure TempReading where
  value   : Int
  ok      : Bool
  counter : BitVec 4
deriving DecidableEq, Repr

/-- Reading `r` of module `m`, when the slot is mapped and written (R28); a status code other than OK fails the status
test alike, whether it is OPEN, SHORT or unknown. -/
def readTemp (map : Option Bank) (p : Memory 8) (m r : Nat) : Option TempReading :=
  match map.bind (fun b => slotOffset b (.tempModule m)) with
  | none => none
  | some off =>
    if slotWritten p off then
      let code := (Memory.read p (off + 7 + 4 * r)).toNat
      some ⟨signedBits 24 (Memory.readLE p (off + 4 + 4 * r) 3), decide (bitField code 4 2 = 0),
        BitVec.ofNat 4 (bitField code 0 4)⟩
    else none

/-- Read an arm's probe status (R79): head state, an unknown code being FAULT, and the identity code. -/
def readProbe (map : Option Bank) (p : Memory 8) (x : Arm) : Option (HeadState × BitVec 16) :=
  match map.bind (fun b => slotOffset b (.probeStatus x)) with
  | none => none
  | some off =>
    if slotWritten p off then
      let h := Memory.read p (off + 1)
      some (if h = 0 then .seated else if h = 1 then .opened else .fault, BitVec.ofNat 16 (Memory.readLE p (off + 2) 2))
    else none

/-- Read the rack status (R79): bit `p` set when port `p` shows occupied. -/
def readRack (map : Option Bank) (p : Memory 8) : Option (BitVec 12) :=
  match map.bind (fun b => slotOffset b .rackStatus) with
  | none => none
  | some off => if slotWritten p off then some (BitVec.ofNat 12 (Memory.readLE p (off + 1) 2)) else none

/-! ## The request slot (10.2) -/

/-- A 32-bit word of a payload. -/
def payloadWord (p : Memory 8) (off : Nat) : Word := BitVec.ofNat 32 (Memory.readLE p off 4)

/-- The request slot of the window at `off`. -/
def readRequest (p : Memory 8) (off : Nat) : RequestSlot :=
  { address := Memory.read p off, code := Memory.read p (off + 1), tag := BitVec.ofNat 16 (Memory.readLE p (off + 2) 2),
    target := Memory.read p (off + 4), second := Memory.read p (off + 5), third := Memory.read p (off + 6),
    fourth := Memory.read p (off + 7),
    params := ⟨payloadWord p (off + 8), payloadWord p (off + 12), payloadWord p (off + 16), payloadWord p (off + 20),
      payloadWord p (off + 24), payloadWord p (off + 28)⟩ }

/-- The six parameter words in order. -/
def paramList (p : ParamWords) : List Word := [p.w0, p.w1, p.w2, p.w3, p.w4, p.w5]

/-- The 16-bit word offset of TABLE_WRITE and TABLE_READ, target bytes 6 and 7. -/
def slotOffset16 (r : RequestSlot) : BitVec 16 := BitVec.ofNat 16 (r.third.toNat + 256 * r.fourth.toNat)

end Sys2Proof.Machine
end

