-- ==== Sys2Proof/Machine/Ops.lean ====
section
/-! DEFINITION. The shared operations over the state: reading and changing one arm's or one kind's state, posting an
event, raising a hold cause, the tip table, and the few steps that several blocks ask of one another. -/
namespace Sys2Proof.Machine

/-! ## One arm, one kind -/

/-- The value of an arm. -/
def PerArm.get {α : Type} (p : PerArm α) (x : Arm) : α :=
  match x with
  | .a => p.a
  | .b => p.b

/-- Change the value of an arm; the other arm's stays. -/
def PerArm.modify {α : Type} (p : PerArm α) (x : Arm) (f : α → α) : PerArm α :=
  match x with
  | .a => ⟨f p.a, p.b⟩
  | .b => ⟨p.a, f p.b⟩

/-- Change both arms' values alike. -/
def PerArm.both {α : Type} (p : PerArm α) (f : α → α) : PerArm α := ⟨f p.a, f p.b⟩

/-- The state of a table kind. -/
def PerKind.get {α : Type} (p : PerKind α) (k : TableKind) : α :=
  match k with
  | .slotMap => p.slotMap
  | .armMap .a => p.armMapA
  | .armMap .b => p.armMapB
  | .channelTable => p.channelTable
  | .zoneTable => p.zoneTable
  | .stationRecord => p.stationRecord

/-- Change the state of a table kind; the others stay. -/
def PerKind.modify {α : Type} (p : PerKind α) (k : TableKind) (f : α → α) : PerKind α :=
  match k with
  | .slotMap => { p with slotMap := f p.slotMap }
  | .armMap .a => { p with armMapA := f p.armMapA }
  | .armMap .b => { p with armMapB := f p.armMapB }
  | .channelTable => { p with channelTable := f p.channelTable }
  | .zoneTable => { p with zoneTable := f p.zoneTable }
  | .stationRecord => { p with stationRecord := f p.stationRecord }

/-- Change every kind's state alike. -/
def PerKind.all {α : Type} (p : PerKind α) (f : α → α) : PerKind α :=
  ⟨f p.slotMap, f p.armMapA, f p.armMapB, f p.channelTable, f p.zoneTable, f p.stationRecord⟩

/-- Change the CEN's state of an arm. -/
def State.onCen (x : Arm) (f : CenArm → CenArm) (s : State) : State := { s with cen := s.cen.modify x f }
/-- Change the THU's state of an arm. -/
def State.onThu (x : Arm) (f : ThuArm → ThuArm) (s : State) : State :=
  { s with thu := { s.thu with arm := s.thu.arm.modify x f } }
/-- Change the TCU's state of an arm. -/
def State.onTcu (x : Arm) (f : TcuArm → TcuArm) (s : State) : State :=
  { s with tcu := { s.tcu with arm := s.tcu.arm.modify x f } }
/-- Change the PCC's state of an arm. -/
def State.onPcc (x : Arm) (f : PccArm → PccArm) (s : State) : State :=
  { s with pcc := { s.pcc with arm := s.pcc.arm.modify x f } }
/-- Change the MGD's state of an arm. -/
def State.onMgd (x : Arm) (f : MgdArm → MgdArm) (s : State) : State :=
  { s with mgd := { s.mgd with arm := s.mgd.arm.modify x f } }
/-- Change the TBS's state of a kind. -/
def State.onTbs (k : TableKind) (f : TableState → TableState) (s : State) : State := { s with tbs := s.tbs.modify k f }

/-- The arm's CEN, THU, TCU, PCC and MGD states. -/
def State.cenOf (s : State) (x : Arm) : CenArm := s.cen.get x
def State.thuOf (s : State) (x : Arm) : ThuArm := s.thu.arm.get x
def State.tcuOf (s : State) (x : Arm) : TcuArm := s.tcu.arm.get x
def State.pccOf (s : State) (x : Arm) : PccArm := s.pcc.arm.get x
def State.mgdOf (s : State) (x : Arm) : MgdArm := s.mgd.arm.get x
/-- The TBS's state of a kind. -/
def State.tbsOf (s : State) (k : TableKind) : TableState := s.tbs.get k

/-! ## Tables in use -/

/-- The active bank of a kind (R120). -/
def activeBank (k : TableKind) (s : State) : Option Bank := (s.tbsOf k).active

/-- The active STATION RECORD. -/
def stationRecord (s : State) : Option StationRecord := (activeBank .stationRecord s).map stationRecordOf

/-- A field of the active STATION RECORD; 0 while that kind has no active bank (log 27). -/
def activeField (f : StationRecord → Nat) (s : State) : Nat :=
  match stationRecord s with
  | some r => f r
  | none => 0

/-- R133: the STATION RECORD in force: the one that was active on the latest return pass, and before any the active one
(log 26). -/
def recordInForce (s : State) : Option StationRecord :=
  match s.riu.record with
  | some b => some (stationRecordOf b)
  | none => stationRecord s

/-- A field of the STATION RECORD in force; 0 while there is none (log 27). -/
def stationField (f : StationRecord → Nat) (s : State) : Nat :=
  match recordInForce s with
  | some r => f r
  | none => 0

/-- The cycle period in ns (R127: µs in the record) by which a deadline is set: a new record's is used from the next deadline
set (R149). -/
def periodNs (s : State) : Nat := 1000 * activeField (·.period) s

/-- The cycle period in ns in force, against which the gap of a bracket is held (R55). -/
def cyclePeriodNs (s : State) : Nat := 1000 * stationField (·.period) s

/-- The output rounding mode in force (R17). -/
def roundingMode (s : State) : Rounding :=
  match recordInForce s with
  | some r => r.rounding
  | none => .nearestEven

/-- The window offset of the active STATION RECORD; 0 while that kind has no active bank (R143). -/
def windowOffset (s : State) : Nat := activeField (·.window) s

/-- The ARM MAP bank the blocks use for the arm (log 8). -/
def armBank (x : Arm) (s : State) : Option Bank := (s.cenOf x).inForce.map (·.bank)

/-- A hold-mask bit of the arm; an arm with no bank has no mask (R41). -/
def maskSet (x : Arm) (m : MaskBit) (s : State) : Bool :=
  match armBank x s with
  | some b => maskBit b m
  | none => false

/-! ## Events and hold causes -/

/-- A source's number (9.1). -/
def sourceNumber : EventSource → Nat
  | .intrusion .a => 0
  | .intrusion .b => 1
  | .limit .a => 2
  | .limit .b => 3
  | .reader .a => 4
  | .reader .b => 5
  | .change .a => 6
  | .change .b => 7
  | .zone .a => 8
  | .zone .b => 9
  | .pointLost => 10
  | .strayTrigger => 11
  | .numeric => 12
  | .thermal => 13
  | .rack => 14
  | .table => 15
  | .ring => 16

/-- R164: a posting sets the pending flag with its detail; where the source was pending, it replaces the detail and sets
the overrun flag. -/
def postTo (d : Detail) (q : SourceState) : SourceState := { q with detail := some d, overrun := q.detail.isSome }

/-- Post an event (R164). -/
def post (src : EventSource) (d : Detail) (s : State) : State :=
  { s with evu := { s.evu with sources := s.evu.sources.modify (sourceNumber src) (postTo d) } }

/-- Raise a hold cause on an arm (R110). -/
def raise (x : Arm) (c : Cause) (s : State) : State := s.onMgd x (fun g => { g with causes := addCause g.causes c })

/-- Raise a cause whose hold-mask bit decides (R6). -/
def raiseMasked (x : Arm) (m : MaskBit) (c : Cause) (s : State) : State := if maskSet x m s then raise x c s else s

/-- Change the state under a condition. -/
def whenDo (c : Bool) (f : State → State) (s : State) : State := if c then f s else s

/-! ## Tips and ports -/

/-- The record of tip `t` (R72). -/
def tipOf (s : State) (t : Nat) : Tip := s.pcc.tips.getD (t - 1) Tip.reset

/-- Change the record of tip `t`. -/
def onTip (t : Nat) (f : Tip → Tip) (s : State) : State :=
  { s with pcc := { s.pcc with tips := s.pcc.tips.modify (t - 1) f } }

/-- Set a tip's location (R73). -/
def moveTip (t : Nat) (l : TipLocation) (s : State) : State := onTip t (fun r => { r with location := l }) s

/-- The first tip id for which a test holds. -/
def findTip (s : State) (p : Nat → Tip → Bool) : Option Nat :=
  (((List.range 32).map (· + 1)).find? (fun t => p t (tipOf s t)))

/-- The tip mounted on an arm: the one whose location names the arm (R73). -/
def mountedTip (s : State) (x : Arm) : Option Nat := findTip s (fun _ r => decide (r.location = .onArm x))

/-- The mounted tip as an entry or a point names it. -/
def mountedRef (s : State) (x : Arm) : Option TipRef := (mountedTip s x).map (fun t => ⟨t, (tipOf s t).revision⟩)

/-- A port's state (R76). -/
def portOf (s : State) (p : Nat) : PortState := s.pcc.ports.getD p .disabled

/-- Set a port's state. -/
def setPort (p : Nat) (v : PortState) (s : State) : State :=
  { s with pcc := { s.pcc with ports := s.pcc.ports.set p v } }

/-- An arm's change session (R80). -/
def sessionOf (s : State) (x : Arm) : Session := (s.pccOf x).session

/-- Whether an arm's session is IDLE. -/
def sessionIdle (s : State) (x : Arm) : Bool := decide ((sessionOf s x).state = .idle)

/-- Change an arm's session record. -/
def onSession (x : Arm) (f : Session → Session) (s : State) : State := s.onPcc x (fun p => { p with session := f p.session })

/-! ## Triggers -/

/-- An arm's trigger (R49 to R53). -/
def triggerOf (s : State) (x : Arm) : Trigger := (s.tcuOf x).trigger

/-- Whether a trigger is LATCHED. -/
def isLatched : Trigger → Bool
  | .latched _ => true
  | _ => false

/-- Whether the arm's trigger is LATCHED. -/
def armLatched (s : State) (x : Arm) : Bool := isLatched (triggerOf s x)

/-- Set an arm's trigger. -/
def setTrigger (x : Arm) (t : Trigger) (s : State) : State := s.onTcu x (fun u => { u with trigger := t })

/-- R53: a suppression takes DISARMED, ARMED or REARM to SUPPRESSED, discarding a rearm countdown. -/
def suppressed : Trigger → Trigger
  | .latched l => .latched l
  | _ => .suppressed

/-- R53: a restore takes SUPPRESSED to DISARMED. -/
def restored : Trigger → Trigger
  | .suppressed => .disarmed
  | t => t

/-- ARMED or REARM goes to DISARMED, a rearm countdown discarded (R54, R95). -/
def standDown : Trigger → Trigger
  | .armed => .disarmed
  | .rearm _ => .disarmed
  | t => t

/-- Change an arm's trigger. -/
def onTrigger (x : Arm) (f : Trigger → Trigger) (s : State) : State := s.onTcu x (fun u => { u with trigger := f u.trigger })

/-- R51, R57: a pass leaves the trigger LATCHED, so its age grows by one; at the latch limit the late resolution is due. -/
def ageLatch (x : Arm) (s : State) : State :=
  match triggerOf s x with
  | .latched l =>
    s.onTcu x (fun u => { u with
      trigger := .latched { l with age := l.age + 1 },
      touchDue := if stationField (·.latchLimit) s ≤ l.age + 1 then .late else .none })
  | _ => s.onTcu x (fun u => { u with touchDue := .none })

/-- R25: an arm's history is emptied. A resolution that was due from an entry made on this pass no longer is (R26), and
the latch ages as on any pass that leaves it LATCHED. -/
def emptyHistory (x : Arm) (s : State) : State :=
  let s' := s.onCen x (fun c => { c with history := [] })
  if (s.tcuOf x).touchDue = .resolve then ageLatch x s' else s'

/-! ## The station clock -/

/-- A span in ns after a clock reading (R142: a 64-bit number; log 9). -/
def clockAfter (t : BitVec 64) (ns : Nat) : BitVec 64 := t + BitVec.ofNat 64 ns

/-- How long the clock has to run until a time; 0 when the time is reached or past (log 9). -/
def timeUntil (now t : BitVec 64) : Nat := (t - now).toInt.toNat

end Sys2Proof.Machine
end

