-- ==== Sys2Proof/Machine/Events.lean ====
section
/-! DEFINITION. The Event Unit (09): the words of a detail, the selection of a pass, priorities and the report level,
and the clearing of a pending RACK event by PORT_SET (R170). -/
namespace Sys2Proof.Machine

/-! ## Detail words (10.3) -/

/-- A tip id with 0 for none (10.3). -/
def tipCode (t : Option Nat) : Nat := t.getD 0

/-- READER_x reasons. -/
def readerCode : ReaderReason → Nat
  | .noSlot => 1
  | .notWritten => 2
  | .scaleFault => 3
  | .notReferenced => 4

/-- Fault causes. -/
def faultCode : FaultCause → Nat
  | .timeout => 1
  | .ring => 2
  | .identity => 3

/-- Session states. -/
def sessionCode : SessionState → Nat
  | .idle => 0
  | .waitZone => 1
  | .drop => 2
  | .pick => 3
  | .fault => 4

/-- Head states. -/
def headCode : HeadState → Nat
  | .seated => 0
  | .opened => 1
  | .fault => 2

/-- Rejection reasons. -/
def rejectCode : RejectReason → Nat
  | .status => 1
  | .range => 2
  | .rate => 3

/-- Reasons of POINT_LOST. -/
def lostCode : LostReason → Nat
  | .noPosition => 1
  | .queueFull => 2

/-- A word from a number. -/
def word (n : Nat) : Word := BitVec.ofNat 32 n

/-- The head-state word of a "head" posting; a head never read has a free value (log 17). -/
def headWord : Option HeadState → Word
  | some h => word (headCode h)
  | none => Config.unreadHeadWord

/-- The last two detail words of a check result: what, and the computed sum or word offset. -/
def checkWords : CheckResult → Word × Word
  | .passed => (word 1, 0)
  | .failedSum v => (word 2, v)
  | .failedContent off => (word 3, word off)

/-- The three detail words of a posting (10.3). -/
def detailWords : Detail → List Word
  | .zones zs => [zs.setWidth 32, 0, 0]
  | .limits ps => [ps.setWidth 32, 0, 0]
  | .reader r => [word (readerCode r), 0, 0]
  | .done t => [word 1, word (tipCode t), 0]
  | .fault c e m code => [word 2, word (faultCode c + 256 * tipCode e + 65536 * tipCode m), code.setWidth 32]
  | .furtherFault kept new => [word 3, word (faultCode kept + 256 * faultCode new), 0]
  | .aborted left => [word 4, word (sessionCode left), 0]
  | .head h code => [word 5, headWord h, code.setWidth 32]
  | .cancelled => [word 6, word 3, 0]
  | .granted z => [word z, word 1, 0]
  | .released z => [word z, word 2, 0]
  | .pointLost x seq r => [word (armCode x), seq.setWidth 32, word (lostCode r)]
  | .stray x => [word (armCode x), 0, 0]
  | .numeric x sat beyond sa ba =>
    [word (armCode x), word (bitsNat [sat, beyond]), word (sa.toNat + 256 * ba.toNat)]
  | .channelFailed c r => [word c, word 1, word (rejectCode r)]
  | .channelRecovered c => [word c, word 2, 0]
  | .aggregateStale i => [word (32 + i), word 3, 0]
  | .missing p t => [word p, word 1, word t]
  | .occupied p => [word p, word 2, 0]
  | .check k r => [word (kindCode k), (checkWords r).1, (checkWords r).2]
  | .activated k g => [word (kindCode k), word 4, g.setWidth 32]
  | .ringLost => [word 1, 0, 0]
  | .ringRestored => [word 2, 0, 0]

/-! ## Selection (9.3) -/

/-- A source's state by number. -/
def sourceOf (s : State) (n : Nat) : SourceState := s.evu.sources.getD n ⟨none, false, 0⟩

/-- R166: a source is eligible when it is pending and its priority is above the report level. -/
def eligible (level : Nat) (q : SourceState) : Bool := q.detail.isSome && decide (level < q.priority)

/-- The better of two sources, the earlier number staying when priorities are equal (R167). -/
def betterSource (s : State) (best : Option Nat) (n : Nat) : Option Nat :=
  if eligible s.evu.reportLevel (sourceOf s n) then
    match best with
    | none => some n
    | some m => if (sourceOf s m).priority < (sourceOf s n).priority then some n else some m
  else best

/-- R167: the eligible source of highest priority, the lowest number among equals. -/
def selectedSource (s : State) : Option Nat := (List.range 17).foldl (betterSource s) none

/-- The pending set: bit `s` for source `s` (10.3). -/
def pendingSet (s : State) : Nat := bitsNat ((List.range 17).map (fun n => (sourceOf s n).detail.isSome))

/-- The overrun set (10.5, EVENTS). -/
def overrunSet (s : State) : Nat := bitsNat ((List.range 17).map (fun n => (sourceOf s n).overrun))

/-- A source's flags cleared and its detail discarded, its priority kept. -/
def clearSource (q : SourceState) : SourceState := { q with detail := none, overrun := false }

/-- Clear one source. -/
def clearAt (n : Nat) (s : State) : State :=
  { s with evu := { s.evu with sources := s.evu.sources.modify n clearSource } }

/-- The bytes of a list of words. -/
def wordsBytes : List Word → List Byte
  | [] => []
  | w :: ws => leBytes 4 w.toNat ++ wordsBytes ws

/-- The bytes of an event slot (10.3). -/
def eventBytes (source : Nat) (overrun : Bool) (pending : Nat) (detail : List Word) : List Byte :=
  BitVec.ofNat 8 source :: BitVec.ofNat 8 (bitsNat [overrun]) :: 0 :: 0 :: (leBytes 4 pending ++ wordsBytes detail)

/-- R167: the selection of a return pass: the event slot's bytes, and the state with the selected source cleared. -/
def selectEvent (s : State) : List Byte × State :=
  match selectedSource s with
  | none => (eventBytes 255 false (pendingSet s) [0, 0, 0], s)
  | some n =>
    let q := sourceOf s n
    let s1 := clearAt n s
    (eventBytes n q.overrun (pendingSet s1) ((q.detail.map detailWords).getD [0, 0, 0]), s1)

/-- R77, R170: whether a RACK detail names a port. -/
def rackNames (p : Nat) : Option Detail → Bool
  | some (.missing q _) => decide (q = p)
  | some (.occupied q) => decide (q = p)
  | _ => false

/-- R170: a PORT_SET taken for port `p` clears a pending RACK event that names it. -/
def clearRack (p : Nat) (s : State) : State :=
  if rackNames p (sourceOf s (sourceNumber .rack)).detail then clearAt (sourceNumber .rack) s else s

end Sys2Proof.Machine
end

