-- ==== Sys2Proof/Machine/Guard.lean ====
section
/-! DEFINITION. The Motion Guard (05): zones, claims and releases, the inside test, intrusion, creep, and the hold
release; with the entry of a change session into its first step, which a grant of zone 0 brings about (R83). -/
namespace Sys2Proof.Machine

/-! ## Reservation -/

/-- A zone's reservation (R101). -/
def zoneOf (s : State) (z : Nat) : Zone := s.mgd.zones.getD z .free

/-- Set a zone's reservation. -/
def setZone (z : Nat) (v : Zone) (s : State) : State := { s with mgd := { s.mgd with zones := s.mgd.zones.set z v } }

/-- Whether the arm holds the zone. -/
def holds (s : State) (x : Arm) (z : Nat) : Bool :=
  match zoneOf s z with
  | .held h _ _ => decide (h = x)
  | .free => false

/-- Whether the arm is the zone's waiter: the zone is held by the other arm and waited on. -/
def waitsOn (s : State) (x : Arm) (z : Nat) : Bool :=
  match zoneOf s z with
  | .held h _ w => decide (h = otherArm x) && w
  | .free => false

/-- Whether the arm waits on any zone. -/
def waits (s : State) (x : Arm) : Bool := (List.range 8).any (fun z => waitsOn s x z)

/-- What a claim comes to: the rows of the table of R102. -/
inductive ClaimOutcome
  | granted
  | kept
  | alreadyWaiting
  | busy
  | deadlock
  | queued
deriving DecidableEq, Repr

/-- R102: the first row that applies. The other arm waits on a zone this arm holds exactly when it waits at all, for a
zone's waiter is never its holder. -/
def claimOutcome (s : State) (x : Arm) (z : Nat) : ClaimOutcome :=
  match zoneOf s z with
  | .free => .granted
  | .held h _ w =>
    if h = x then .kept
    else if w then .alreadyWaiting
    else if waits s x then .busy
    else if waits s (otherArm x) then .deadlock
    else .queued

/-- The effect of a claim on the zone (R102). -/
def applyClaim (x : Arm) (z : Nat) (s : State) : State :=
  match claimOutcome s x z, zoneOf s z with
  | .granted, _ => setZone z (.held x false false) s
  | .kept, .held h _ w => setZone z (.held h false w) s
  | .queued, .held h r _ => setZone z (.held h r true) s
  | _, _ => s

/-- The result a claim replies (R102). -/
def claimResult : ClaimOutcome → Result
  | .granted => .done
  | .kept => .done
  | .alreadyWaiting => .accepted
  | .busy => .busy
  | .deadlock => .deadlock
  | .queued => .accepted

/-- R82, R83, R84: a session that has zone 0 enters DROP when a drop tip is recorded, otherwise PICK, and the step timer
is loaded. -/
def enterStep (x : Arm) (s : State) : State :=
  onSession x (fun c => { c with
    state := if c.dropTip.isSome then .drop else .pick,
    timer := some (stationField (·.stepTimeout) s) }) s

/-- R103: the waiter is granted the zone; a grant of zone 0 to a WAIT_ZONE session moves the session on. -/
def grantZone (y : Arm) (z : Nat) (s : State) : State :=
  let s1 := post (.zone y) (.granted z) (setZone z (.held y false false) s)
  if z = 0 ∧ (sessionOf s y).state = .waitZone then enterStep y s1 else s1

/-- R104: a zone released becomes FREE, or its waiter is granted it. `announce` posts "released" for the releasing arm
also when nobody waited (R106). -/
def releaseZone (announce : Bool) (z : Nat) (s : State) : State :=
  match zoneOf s z with
  | .free => s
  | .held h _ w =>
    let s1 := if announce || w then post (.zone h) (.released z) s else s
    if w then grantZone (otherArm h) z s1 else setZone z .free s1

/-- An arm's inside record for a zone (R100). -/
def insideOf (s : State) (x : Arm) (z : Nat) : Inside := (s.mgdOf x).inside.getD z .unknown

/-- The holder asks for a release (R104): at once when its record reads outside, otherwise RELEASING. -/
def askRelease (x : Arm) (z : Nat) (s : State) : State :=
  match zoneOf s z with
  | .held h r w =>
    if h = x ∧ r = false then
      if insideOf s x z = .outside then releaseZone false z s else setZone z (.held h true w) s
    else s
  | .free => s

/-- A wait is withdrawn: the zone keeps its holder and has no waiter (R105). -/
def withdrawWait (x : Arm) (z : Nat) (s : State) : State :=
  match zoneOf s z with
  | .held h r _ => if h = otherArm x then setZone z (.held h r false) s else s
  | .free => s

/-- R106: a zone held with the RELEASING mark whose holder's record reads outside is due to be released. -/
def releaseDue (s : State) (z : Nat) : Bool :=
  match zoneOf s z with
  | .held h true _ => decide (insideOf s h z = .outside)
  | _ => false

/-- R106: the deferred release of a zone, when it is due. -/
def deferredRelease (z : Nat) (s : State) : State := if releaseDue s z then releaseZone true z s else s

/-! ## The inside test and intrusion -/

/-- R60, R97: the cell transform of a position. -/
def cellTransform (b : Bank) (t : Vec3) : Vec3 :=
  let X := axisRecord b 0
  let Y := axisRecord b 1
  let Z := axisRecord b 2
  ⟨X.offset + X.sign * t.x, Y.offset + Y.sign * t.y, Z.offset + Z.sign * t.z⟩

/-- R99: a cell tip lies in a zone's box widened by the envelope radius, bounds included. -/
def inBox (r : ZoneRecord) (e : Int) (c : Vec3) : Bool :=
  decide (r.lo.x - e ≤ c.x ∧ c.x ≤ r.hi.x + e) && decide (r.lo.y - e ≤ c.y ∧ c.y ≤ r.hi.y + e)
    && decide (r.lo.z - e ≤ c.z ∧ c.z ≤ r.hi.z + e)

/-- The inside test of a zone (R98, R99): with no active ZONE TABLE every zone has an empty box. -/
def insideZone (table : Option Bank) (arm : Bank) (c : Vec3) (z : Nat) : Bool :=
  match table with
  | some b => inBox (zoneRecord b z) (envelope arm) c
  | none => false

/-- Whether a zone is enabled; none is while the ZONE TABLE kind has no active bank (R98). -/
def zoneEnabled (table : Option Bank) (z : Nat) : Bool :=
  match table with
  | some b => (zoneRecord b z).enabled
  | none => false

/-- R100: the pass's inside records of an arm. -/
def insideRecords (s : State) (arm : Bank) (c : Vec3) : List Inside :=
  (List.range 8).map (fun z => if insideZone (activeBank .zoneTable s) arm c z then .inside else .outside)

/-- R108: the pass's intrusion latches of an arm, from its inside records and the reservations. -/
def intrusionLatches (s : State) (x : Arm) : BitVec 8 :=
  zoneSet (fun z => zoneEnabled (activeBank .zoneTable s) z && decide (insideOf s x z = .inside) && !holds s x z)

/-- R109, R112: the onsets of a pass post INTRUSION_x once with every zone, and raise INTRUSION when some zone of the
onsets has no creep entry. -/
def intrusionOnset (x : Arm) (onsets : BitVec 8) (s : State) : State :=
  if onsets = 0 then s
  else
    let s1 := post (.intrusion x) (.zones onsets) s
    if onsets &&& ~~~(creepZones (s.mgdOf x).creep) = 0 then s1 else raise x .intrusion s1

/-- R113: creep entries whose latch is clear, or whose limit condition is empty, are removed. -/
def removeCreep (x : Arm) (s : State) : State :=
  s.onMgd x (fun g => { g with
    creep := creepOf (creepZones g.creep &&& g.latches) (hasCreepLimit g.creep && decide ((s.cenOf x).limit ≠ 0)) })

/-- R97 to R100, R108, R109, R113: a pass that hands the MGD the arm's exact tip position. -/
def monitorArm (x : Arm) (t : Vec3) (s : State) : State :=
  match armBank x s with
  | none => s
  | some b =>
    let s1 := s.onMgd x (fun g => { g with inside := insideRecords s b (cellTransform b t) })
    let former := (s1.mgdOf x).latches
    let now := intrusionLatches s1 x
    let s2 := intrusionOnset x (now &&& ~~~former) (s1.onMgd x (fun g => { g with latches := now }))
    removeCreep x s2

/-! ## The guard word and the hold release -/

/-- R114: the guard word as the sets stand. -/
def guardWord (s : State) : Nat :=
  guardBits (decide ((s.mgdOf .a).causes ≠ 0)) (decide ((s.mgdOf .a).creep ≠ 0))
    (decide ((s.mgdOf .b).causes ≠ 0)) (decide ((s.mgdOf .b).creep ≠ 0))

/-- R115: whether a cause's condition allows its removal. -/
def removable (s : State) (x : Arm) : Cause → Bool
  | .mode => decide (s.riu.station = .run)
  | .ring => !s.riu.ringLoss
  | .reader => !(s.cenOf x).reader
  | .intrusion => decide ((s.mgdOf x).latches = 0)
  | .limit => decide ((s.cenOf x).limit = 0)
  | .head => (s.pccOf x).consistent
  | .change => decide ((sessionOf s x).state ≠ .fault)
  | .abort => true
  | .numeric => true
  | .mapRange => true
  | .thermal => true
  | .pointLost => true

/-- The twelve causes. -/
def allCauses : List Cause :=
  [.mode, .ring, .reader, .intrusion, .limit, .head, .change, .abort, .numeric, .mapRange, .thermal, .pointLost]

/-- R115, R116: the causes a HOLD_RELEASE leaves; under the recover flag INTRUSION and LIMIT always go. -/
def remainingCauses (s : State) (x : Arm) (recover : Bool) : BitVec 12 :=
  causesOf (allCauses.filter (fun c =>
    hasCause (s.mgdOf x).causes c && !removable s x c && !(recover && (decide (c = .intrusion) || decide (c = .limit)))))

/-- R116: the creep set after a HOLD_RELEASE: entries for the causes moved, beside those that stand. -/
def creepAfter (s : State) (x : Arm) (recover : Bool) : BitVec 9 :=
  let g := s.mgdOf x
  let zones := if recover && hasCause g.causes .intrusion then g.latches else 0
  let limit := recover && hasCause g.causes .limit && decide ((s.cenOf x).limit ≠ 0)
  creepOf (creepZones g.creep ||| zones) (hasCreepLimit g.creep || limit)

end Sys2Proof.Machine
end

