-- ==== Sys2Proof/Machine/Probe.lean ====
section
/-! DEFINITION. The Probe Change Controller (04): the readings, the steps of a change session, its completion, faults
and abort, the identity supervision and the rack monitor. -/
namespace Sys2Proof.Machine

/-! ## Ends of a session -/

/-- The session record becomes IDLE with every field none (R80), and no reading completes a step of it any more. -/
def clearSession (x : Arm) (s : State) : State :=
  s.onPcc x (fun p => { p with session := Session.idle, changeDue := false })

/-- R88: a session completes: "done" is posted with the tip now mounted, the release of zone 0 is requested, the trigger
is restored, the record becomes IDLE. -/
def completeSession (x : Arm) (s : State) : State :=
  clearSession x (onTrigger x restored (askRelease x 0 (post (.change x) (.done (mountedTip s x)) s)))

/-- R89: a session enters FAULT, or, where it is in FAULT already, keeps its cause and posts the new one beside it. -/
def enterFault (x : Arm) (cause : FaultCause) (detail : Detail) (s : State) : State :=
  let c := sessionOf s x
  match c.state, c.fault with
  | .fault, some kept => post (.change x) (.furtherFault kept cause) s
  | _, _ =>
    post (.change x) detail (raise x .change
      (s.onPcc x (fun p => { p with
        session := { p.session with state := .fault, timer := none, fault := some cause }, changeDue := false })))

/-- A waiting session is cancelled: the claim on zone 0 withdrawn, the record IDLE, the trigger restored (R83, R95). -/
def cancelWaiting (x : Arm) (s : State) : State :=
  clearSession x (onTrigger x restored (withdrawWait x 0 s))

/-- Whether a session is in DROP or PICK. -/
def inStep (c : Session) : Bool := decide (c.state = .drop) || decide (c.state = .pick)

/-! ## Steps -/

/-- R84: on a valid cycle frame the step timer of a DROP or PICK session decreases by one. -/
def tickStep (x : Arm) (s : State) : State :=
  if inStep (sessionOf s x) then onSession x (fun c => { c with timer := c.timer.map (fun n => n - 1) }) s else s

/-- STEP_TIMEOUT (R84, R89): a step timer that has reached 0 puts the session in FAULT with cause TIMEOUT. -/
def stepTimeout (x : Arm) (s : State) : State :=
  if inStep (sessionOf s x) && decide ((sessionOf s x).timer = some 0) then
    enterFault x .timeout (.fault .timeout none none 0) s
  else s

/-- R85: the drop completes. -/
def dropDone (x : Arm) (s : State) : State :=
  let c := sessionOf s x
  match c.dropTip, c.dropPort with
  | some t, some p =>
    let s1 := emptyHistory x (setPort p (.holds t) (moveTip t (.port p) s))
    if c.pickTip.isSome then
      onSession x (fun c => { c with state := .pick, timer := some (stationField (·.stepTimeout) s) })
        (s1.onPcc x (fun q => { q with changeDue := false }))
    else completeSession x s1
  | _, _ => s

/-- DROP_COMPLETE (R85): the latest pass showed the head OPEN and the drop port occupied. -/
def dropComplete (x : Arm) (s : State) : State :=
  if (s.pccOf x).changeDue && decide ((sessionOf s x).state = .drop) then dropDone x s else s

/-- R86: the present tip other than the expected one that carries a code. -/
def tipWithCode (s : State) (expected : Nat) (code : BitVec 16) : Option Nat :=
  if code = 0 then none
  else findTip s (fun t r => r.present && decide (t ≠ expected) && decide (r.code = code))

/-- What a completed pick comes to (R86). -/
inductive PickOutcome
  | identified (m : Nat)
  | matched
  | unidentified
deriving DecidableEq, Repr

/-- R86: the comparison of the code read with the expected tip. -/
def pickOutcome (s : State) (expected : Nat) (code : BitVec 16) : PickOutcome :=
  match tipWithCode s expected code with
  | some m => .identified m
  | none => if code = (tipOf s expected).code ∨ (tipOf s expected).code = 0 then .matched else .unidentified

/-- R87, R95: the other arm loses its mounted tip to the mismatch: its history is emptied, its trigger stands down, cause
HEAD is raised. -/
def losesTip (y : Arm) (s : State) : State := raise y .head (onTrigger y standDown (emptyHistory y s))

/-- R87: the "head" posting of the arm that loses its tip. -/
def postHead (y : Arm) (s : State) : State :=
  post (.change y) (.head (s.pccOf y).headLast (s.pccOf y).codeLast) s

/-- R95: the other arm's WAIT_ZONE session expects the tip taken as its drop tip or its pick tip. -/
def expectsTip (s : State) (y : Arm) (m : Nat) : Bool :=
  let c := sessionOf s y
  decide (c.state = .waitZone) && (decide (c.dropTip = some m) || decide (c.pickTip = some m))

/-- R95: the other arm's waiting session is cancelled and cause CHANGE raised. -/
def cancelByMismatch (y : Arm) (s : State) : State := raise y .change (cancelWaiting y s)

/-- R95: an arm that lost its tip and whose session is IDLE after the step has an inconsistent head. -/
def markHead (y : Arm) (s : State) : State :=
  if sessionIdle s y then s.onPcc y (fun p => { p with consistent := false }) else s

/-- R95: what the mismatch does to the other arm. Where it both loses its tip and is cancelled, `headLast` says which of
the two postings at CHANGE comes last (log 29; a pick completion that stays due takes the head posting first: log 2). -/
def disturb (y : Arm) (m : Nat) (lost headLast : Bool) (s : State) : State :=
  let cancel := expectsTip s y m
  let s1 := whenDo lost (losesTip y) s
  let s2 := whenDo cancel (cancelByMismatch y) s1
  let head := whenDo lost (postHead y)
  let cancelled := whenDo cancel (post (.change y) .cancelled)
  let s3 := if headLast then head (cancelled s2) else cancelled (head s2)
  whenDo lost (markHead y) s3

/-- R87: the port a tip identified stood in, other than the pick port, becomes UNVERIFIED. -/
def unverifyFormer (l : TipLocation) (pickPort : Nat) (s : State) : State :=
  match l with
  | .port q => if q = pickPort then s else setPort q .unverified s
  | _ => s

/-- R86 to R88, R95: a completed pick. -/
def pickDone (x : Arm) (headLast : Bool) (s : State) : State :=
  let c := sessionOf s x
  let code := (s.pccOf x).codeLast
  match c.pickTip, c.pickPort with
  | some e, some p =>
    match pickOutcome s e code with
    | .matched => completeSession x (emptyHistory x (setPort p .empty (moveTip e (.onArm x) s)))
    | .unidentified =>
      enterFault x .identity (.fault .identity (some e) none code) (setPort p .empty (moveTip e .unknown s))
    | .identified m =>
      let former := (tipOf s m).location
      let s1 := unverifyFormer former p (setPort p .empty (moveTip e .unknown (moveTip m (.onArm x) s)))
      let s2 := disturb (otherArm x) m (decide (former = .onArm (otherArm x))) headLast (emptyHistory x s1)
      enterFault x .identity (.fault .identity (some e) (some m) code) s2
  | _, _ => s

/-- PICK_COMPLETE (R86): the latest pass showed the head SEATED and the pick port unoccupied. -/
def pickComplete (x : Arm) (headLast : Bool) (s : State) : State :=
  if (s.pccOf x).changeDue && decide ((sessionOf s x).state = .pick) then pickDone x headLast s else s

/-! ## Readings of a pass -/

/-- Whether a rack reading shows a port occupied (R79). -/
def showsOccupied (r : BitVec 12) (p : Nat) : Bool := r.getLsbD p

/-- R85, R86: whether the readings of a pass complete the session's step. -/
def completesStep (c : Session) (h : HeadState) (rack : Option (BitVec 12)) : Bool :=
  match c.state, rack with
  | .drop, some r => decide (h = .opened) && (c.dropPort.map (showsOccupied r)).getD false
  | .pick, some r => decide (h = .seated) && (c.pickPort.map (fun p => !showsOccupied r p)).getD false
  | _, _ => false

/-- R93: the head condition that a reading shows. -/
def headConsistent (s : State) (x : Arm) (h : HeadState) (code : BitVec 16) : Bool :=
  match mountedTip s x with
  | none => true
  | some t => decide (h = .seated) && (decide ((tipOf s t).code = 0) || decide ((tipOf s t).code = code))

/-- R93: the identity supervision of an IDLE arm: HEAD is raised on every inconsistent pass, the event posted at onset. -/
def supervise (x : Arm) (h : HeadState) (code : BitVec 16) (s : State) : State :=
  let ok := headConsistent s x h code
  let onset := (s.pccOf x).consistent && !ok
  let s1 := s.onPcc x (fun p => { p with consistent := ok })
  whenDo onset (post (.change x) (.head (some h) code)) (whenDo (!ok) (raise x .head) s1)

/-- R79, R85, R86, R93: the part of a return pass that reads an arm's probe status. -/
def readStatus (x : Arm) (input : Memory 8) (s : State) : State :=
  match readProbe (activeBank .slotMap s) input x with
  | none => s
  | some (h, code) =>
    let s1 := s.onPcc x (fun p => { p with headLast := some h, codeLast := code })
    if sessionIdle s1 x then supervise x h code s1
    else
      let due := completesStep (sessionOf s1 x) h (readRack (activeBank .slotMap s) input)
      s1.onPcc x (fun p => { p with changeDue := due })

/-- R94: a port is exempt while a session that is not IDLE names it. -/
def exempt (s : State) (p : Nat) : Bool :=
  let names (x : Arm) : Bool :=
    let c := sessionOf s x
    decide (c.state ≠ .idle) && (decide (c.dropPort = some p) || decide (c.pickPort = some p))
  names .a || names .b

/-- R94: the comparison of one port with its occupancy. -/
def monitorPort (r : BitVec 12) (p : Nat) (s : State) : State :=
  if exempt s p then s
  else
    match portOf s p, showsOccupied r p with
    | .holds t, false => post .rack (.missing p t) (setPort p .unverified (moveTip t .unknown s))
    | .empty, true => post .rack (.occupied p) (setPort p .unverified s)
    | _, _ => s

/-- A step of the part of a return pass that reads the rack status. -/
inductive RackStep
  | reading
  | port (p : Nat)
deriving DecidableEq, Repr

/-- R79, R94: the steps on a return pass: the reading is kept, then the ports are compared. -/
def rackSteps (ports : List Nat) : List RackStep := .reading :: (arrange 12 ports).map .port

/-- Take one step, where the slot is read; the ports of a session cancelled on this pass are spared (R95). -/
def takeRack (input : Memory 8) (spared : List Nat) (t : RackStep) (s : State) : State :=
  match readRack (activeBank .slotMap s) input with
  | none => s
  | some r =>
    match t with
    | .reading => { s with pcc := { s.pcc with occupancy := some r } }
    | .port p => if spared.contains p then s else monitorPort r p s

/-- Steps of the rack's part, one after the other. -/
def rackPass (input : Memory 8) (spared : List Nat) (steps : List RackStep) (s : State) : State :=
  steps.foldl (fun s t => takeRack input spared t s) s

/-- R95: the ports of an arm's waiting session that a step has cancelled. -/
def cancelledPorts (before after : State) (y : Arm) : List Nat :=
  let c := sessionOf before y
  if c.state = .waitZone ∧ (sessionOf after y).state = .idle then c.dropPort.toList ++ c.pickPort.toList else []

end Sys2Proof.Machine
end

