-- ==== Sys2Proof/Machine/Tables.lean ====
section
/-! DEFINITION. The Table Store (06): the weighted sum, the content rules with the offset each is broken at, the check,
the cross test, and the swap of the banks. -/
namespace Sys2Proof.Machine

/-! ## The weighted sum -/

/-- R125: the sum over a bank's words of (offset + 1) times the word, modulo 2^32; unlisted words count as zero. -/
def weightedSum : Bank → Word
  | [] => 0
  | (w, v) :: rest => BitVec.ofNat 32 ((w + 1) * v.toNat) + weightedSum rest

/-! ## Content rules

A rule is the word offset at which it is broken, and whether it holds. A rule about a two-word field stands at the lower
word, a rule relating two fields at the later field (R126). -/

/-- A content rule of a bank. -/
structure ContentRule where
  offset : Nat
  holds  : Bool
deriving DecidableEq, Repr

/-- R126: the first word offset, in word order, at which a rule is broken. -/
def firstBroken : List ContentRule → Option Nat
  | [] => none
  | r :: rs =>
    if r.holds then firstBroken rs
    else
      match firstBroken rs with
      | none => some r.offset
      | some o => some (min r.offset o)

/-- The word at an offset lies in a range. -/
def inRange (b : Bank) (off lo hi : Nat) : ContentRule := ⟨off, decide (lo ≤ wordNat b off ∧ wordNat b off ≤ hi)⟩

/-- The signed word at an offset lies in a range. -/
def inRangeInt (b : Bank) (off : Nat) (lo hi : Int) : ContentRule := ⟨off, decide (lo ≤ wordInt b off ∧ wordInt b off ≤ hi)⟩

/-- A 40-bit field with two words to itself lies within its width (R126). -/
def within40 (b : Bank) (off : Nat) : ContentRule := ⟨off, signCopied 8 (Memory.read b (off + 1))⟩

/-- A 24-bit field lies within its width (R126). -/
def within24 (b : Bank) (off : Nat) : ContentRule := ⟨off, signCopied 24 (Memory.read b off)⟩

/-! ### SLOT MAP -/

/-- A used entry as its three words stand. -/
structure RawSlot where
  entry : Nat
  kind  : Nat
  which : Nat
  off   : Nat
deriving DecidableEq, Repr

/-- Entry `e`'s words. -/
def rawSlot (b : Bank) (e : Nat) : RawSlot := ⟨e, wordNat b (3 * e), wordNat b (3 * e + 1), wordNat b (3 * e + 2)⟩

/-- The used entries. -/
def usedSlots (b : Bank) : List RawSlot := ((List.range 16).map (rawSlot b)).filter (fun r => decide (r.kind ≠ 0))

/-- Two runs of bytes share a byte. -/
def sharesByte (o1 l1 o2 l2 : Nat) : Bool := decide (o1 < o2 + l2) && decide (o2 < o1 + l1)

/-- A used slot shares a byte with a station window at an offset. -/
def meetsWindow (w : Nat) (r : RawSlot) : Bool := sharesByte r.off (slotLength r.kind) w Config.windowLength

/-- The rules of one used entry on its own. -/
def slotRules (r : RawSlot) : List ContentRule :=
  [⟨3 * r.entry, decide (r.kind ≤ 4)⟩,
   ⟨3 * r.entry + 1, decide (4 < r.kind) || (slotNameOf r.kind r.which).isSome⟩,
   ⟨3 * r.entry + 2, decide (r.off % 4 = 0) && decide (r.off + slotLength r.kind ≤ Config.payloadLength)⟩]

/-- The rules between an entry and an earlier used entry (log 12: at the later entry's words). -/
def slotPairRules (r earlier : RawSlot) : List ContentRule :=
  [⟨3 * r.entry + 1, !(decide (r.kind = earlier.kind) && decide (r.which = earlier.which))⟩,
   ⟨3 * r.entry + 2, !sharesByte r.off (slotLength r.kind) earlier.off (slotLength earlier.kind)⟩]

/-- The rule between an entry and the station window, where there is one (R127, R132). -/
def slotWindowRules (window : Option Nat) (r : RawSlot) : List ContentRule :=
  match window with
  | none => []
  | some w => [⟨3 * r.entry + 2, !meetsWindow w r⟩]

/-- The content rules of the SLOT MAP (R127), against the window of the active STATION RECORD. -/
def slotMapRules (b : Bank) (window : Option Nat) : List ContentRule :=
  let used := usedSlots b
  used.flatMap (fun r => slotRules r ++ slotWindowRules window r
    ++ (used.filter (fun o => decide (o.entry < r.entry))).flatMap (slotPairRules r))

/-! ### STATION RECORD -/

/-- The rule between a station window and the used slots of the active SLOT MAP (R127, R132). -/
def windowRule (slots : Option Bank) (w : Nat) : ContentRule :=
  ⟨0, !((slots.map usedSlots).getD []).any (meetsWindow w)⟩

/-- The content rules of the STATION RECORD (R127), against the active SLOT MAP. -/
def stationRules (b : Bank) (slots : Option Bank) : List ContentRule :=
  [⟨0, decide (wordNat b 0 % 4 = 0) && decide (wordNat b 0 ≤ 1216)⟩, windowRule slots (wordNat b 0),
   inRange b 1 50 4000, inRange b 2 0 255, inRange b 3 0 3, inRange b 4 0 2, inRange b 5 2 16, inRange b 6 1 65535,
   inRange b 7 0 65535, inRange b 8 0 40000]

/-! ### ZONE TABLE -/

/-- The content rules of zone `z` (R127): the corners are 40-bit fields of the bit string, so only their order and the
enabled code can be wrong. H_X begins in word 3, H_Y in word 5, H_Z in word 6. -/
def zoneRules (b : Bank) (z : Nat) : List ContentRule :=
  let r := zoneRecord b z
  [⟨8 * z + 3, decide (r.lo.x < r.hi.x)⟩, ⟨8 * z + 5, decide (r.lo.y < r.hi.y)⟩, ⟨8 * z + 6, decide (r.lo.z < r.hi.z)⟩,
   ⟨8 * z + 7, decide (bitField (words8 b (8 * z)) 240 8 ≤ 1)⟩]

/-! ### ARM MAP -/

/-- The content rules of one axis of the arm record (R128). -/
def axisRules (b : Bank) (a : Nat) : List ContentRule :=
  let r := axisRecord b a
  [inRange b (11 * a) 1 100000, within40 b (11 * a + 1), inRange b (11 * a + 3) 0 30000, within40 b (11 * a + 4),
   within40 b (11 * a + 6), ⟨11 * a + 6, decide (r.lo < r.hi)⟩, within40 b (11 * a + 8),
   ⟨11 * a + 10, decide (r.sign = 1) || decide (r.sign = -1)⟩]

/-- The content rules of an error table (R128): node words beyond the count selected are not tested. -/
def tableRules (b : Bank) (i : Nat) : List ContentRule :=
  let base := tableBase i
  let pitch := wordNat b (base + 2)
  let count := wordNat b (base + 3)
  let countOk := decide (count = 0) || (decide (2 ≤ count) && decide (count ≤ 65))
  [within40 b base, ⟨base + 2, decide (pitch = 0) || (decide (1000000 ≤ pitch) && decide (pitch ≤ 200000000))⟩,
   ⟨base + 3, countOk⟩]
    ++ (if countOk then (List.range (tableCount b i)).map (fun n => within24 b (base + 4 + n)) else [])

/-- The content rules of an ARM MAP (R128). -/
def armMapRules (b : Bank) : List ContentRule :=
  (List.range 3).flatMap (axisRules b)
    ++ [within24 b 33, within24 b 34, within24 b 35, inRange b 36 0 500000000, inRange b 37 0 1, inRange b 38 1 255,
        inRange b 39 0 15]
    ++ (List.range 12).flatMap (tableRules b)

/-! ### CHANNEL TABLE -/

/-- The content rules of a channel record (R128); a record with role NONE is not tested further. -/
def channelRules (b : Bank) (c : Nat) : List ContentRule :=
  let o := 8 * c
  if wordNat b o = 0 then []
  else
    [inRange b o 1 8, inRange b (o + 1) 0 5, inRange b (o + 2) 0 3, inRangeInt b (o + 3) (-20000) 80000,
     inRangeInt b (o + 4) (-20000) 80000, ⟨o + 4, decide (wordInt b (o + 3) < wordInt b (o + 4))⟩,
     inRange b (o + 5) 1 10000, inRange b (o + 6) 0 15, inRange b (o + 7) 1 255]

/-- The content rules of a kind for a bank, against a station window and against the slots of a SLOT MAP. -/
def rulesAgainst (k : TableKind) (b : Bank) (window : Option Nat) (slots : Option Bank) : List ContentRule :=
  match k with
  | .slotMap => slotMapRules b window
  | .armMap _ => armMapRules b
  | .channelTable => (List.range 24).flatMap (channelRules b)
  | .zoneTable => (List.range 8).flatMap (zoneRules b)
  | .stationRecord => stationRules b slots

/-- The content rules of a kind for a bank, against the active banks the rules name. -/
def contentRules (k : TableKind) (b : Bank) (s : State) : List ContentRule :=
  rulesAgainst k b ((stationRecord s).map (·.window)) (activeBank .slotMap s)

/-- R125, R126: the result of a check: the sum first, then the content rules. -/
def checkBank (k : TableKind) (b : Bank) (expected : Word) (s : State) : CheckResult :=
  if weightedSum b ≠ expected then .failedSum (weightedSum b)
  else
    match firstBroken (contentRules k b s) with
    | none => .passed
    | some o => .failedContent o

/-! ## The check in portions -/

/-- R124: a return pass examines one portion of a bank in CHECKING, but for the return pass of the frame that carried
the request. -/
def checkPortion (t : TableState) : TableState :=
  match t.state with
  | .checking e left fresh =>
    if fresh then { t with state := .checking e left false }
    else { t with state := .checking e (left - Config.checkPortion) false }
  | _ => t

/-- The part of a return pass that examines the banks in CHECKING (R124). -/
def checksPass (s : State) : State := { s with tbs := s.tbs.all checkPortion }

/-- A new frame has begun: the return pass of the request's frame can no longer come (R124). -/
def unfresh (t : TableState) : TableState :=
  match t.state with
  | .checking e left _ => { t with state := .checking e left false }
  | _ => t

/-- TABLE_CHECK_COMPLETE (R129): a check whose last portion has been examined records its result and posts TABLE. -/
def checkComplete (k : TableKind) (s : State) : State :=
  let t := s.tbsOf k
  match t.state with
  | .checking e 0 false =>
    let r := checkBank k t.staging e s
    post .table (.check k r)
      (s.onTbs k (fun t => { t with state := if r = .passed then .passed else .failed, lastResult := some r }))
  | _ => s

/-! ## Activation -/

/-- R132: the cross test of an activation: the offset of the offending word, where the slots and the window meet. -/
def crossTest (k : TableKind) (s : State) : Option Nat :=
  let b := (s.tbsOf k).staging
  match k with
  | .slotMap => firstBroken ((usedSlots b).flatMap (slotWindowRules ((stationRecord s).map (·.window))))
  | .stationRecord => firstBroken [windowRule (activeBank .slotMap s) (wordNat b 0)]
  | _ => none

/-- R131: the swap of the banks. -/
def swapBanks (t : TableState) : TableState :=
  { t with
    staging := t.active.getD [], state := if t.active.isSome then .passed else .empty, active := some t.staging,
    generation := t.generation + 1 }

/-- R149, R153: the supervision deadline 1.5 periods after the arrival of the latest valid cycle frame. -/
def deadlineFromFrame (s : State) : Option (BitVec 64) :=
  if (stationRecord s).isSome then some (clockAfter s.riu.clockAtAlign (3 * periodNs s / 2)) else none

/-- R133: what an activation does at once to the blocks that use the kind. -/
def activationEffect (k : TableKind) (s : State) : State :=
  match k with
  | .slotMap => s
  | .armMap x => emptyHistory x (s.onCen x (fun c => { c with satSeen := false, rangeSeen := false }))
  | .channelTable => { s with thu := { s.thu with restart := true } }
  | .zoneTable =>
    { s with mgd := { s.mgd with arm := s.mgd.arm.both (fun g => { g with inside := List.replicate 8 .unknown }) } }
  | .stationRecord =>
    if s.riu.deadline = none then { s with riu := { s.riu with deadline := deadlineFromFrame s } } else s

/-- R131, R133: an activation that has passed its checks. -/
def activate (k : TableKind) (s : State) : State :=
  let s1 := s.onTbs k swapBanks
  post .table (.activated k (s1.tbsOf k).generation) (activationEffect k s1)

/-- R132: an activation refused by the cross test leaves the staging bank FAILED at the offending word. -/
def failCross (k : TableKind) (off : Nat) (s : State) : State :=
  post .table (.check k (.failedContent off))
    (s.onTbs k (fun t => { t with state := .failed, lastResult := some (.failedContent off) }))

end Sys2Proof.Machine
end

