-- ==== Sys2Proof/Machine/Thermal.lean ====
section
/-! DEFINITION. The Thermal Unit (02): intake, the acceptance tests, the channel states and filters, the aggregates,
the stale onsets, and the applied thermal sets with their advances. -/
namespace Sys2Proof.Machine

/-! ## One channel -/

/-- What a channel's update posts (R35, R36). -/
inductive ChannelEvent
  | failed (r : RejectReason)
  | recovered
deriving DecidableEq, Repr

/-- R37: a step of the filter with shift `k`. -/
def filterStep (k : Nat) (y x : Int) : Int := y + (256 * x - y) / ((2 ^ k : Nat) : Int)

/-- R37: the filtered value of a filter state. -/
def filteredValue (y : Int) : Int := (y + 128) / 256

/-- R32: the rate test of a sample against the last accepted value and its time. -/
def rateOk (r : ChannelRecord) (sync : BitVec 64) (x : Int) (f : ChannelFilter) : Bool :=
  let e : Int := (sync.toNat : Int) - (f.time.toNat : Int)
  if 0 < e then decide (roundDiv (((x - f.last).natAbs : Int) * 1000000000) e.toNat ≤ (r.maxRate : Int))
  else decide (x = f.last)

/-- R31: the first test that fails gives the reason; the rate test is applied only where the state requires it. -/
def rejection (r : ChannelRecord) (sync : BitVec 64) (c : Channel) (m : TempReading) : Option RejectReason :=
  if !m.ok then some .status
  else if m.value < r.low ∨ r.high < m.value then some .range
  else
    match c.state, c.filter with
    | .valid, some f => if rateOk r sync m.value f then none else some .rate
    | .held, some f => if rateOk r sync m.value f then none else some .rate
    | _, _ => none

/-- R33, R34, R35, R36: an accepted sample seeds the filter in NO_DATA and FAILED and steps it in VALID and HELD. -/
def acceptSample (r : ChannelRecord) (sync : BitVec 64) (x : Int) (c : Channel) : Channel :=
  let y :=
    match c.state, c.filter with
    | .valid, some f => filterStep r.shift f.y x
    | .held, some f => filterStep r.shift f.y x
    | _, _ => 256 * x
  { c with state := .valid, filter := some ⟨y, x, sync⟩, count := 0 }

/-- R33 to R36: a rejected sample. -/
def rejectSample (r : ChannelRecord) (why : RejectReason) (c : Channel) : Channel × Option ChannelEvent :=
  let c1 := { c with reason := some why }
  match c.state with
  | .noData => (c1, none)
  | .failed => (c1, none)
  | .valid =>
    if r.holdLimit ≤ 1 then ({ c1 with state := .failed, count := 1 }, some (.failed why))
    else ({ c1 with state := .held, count := 1 }, none)
  | .held =>
    if r.holdLimit ≤ c.count + 1 then ({ c1 with state := .failed, count := c.count + 1 }, some (.failed why))
    else ({ c1 with count := c.count + 1 }, none)

/-- R29: a reading is a new sample when the last counter seen is absent or differs. -/
def isNewSample (c : Channel) (m : TempReading) : Bool := decide (c.counter ≠ some m.counter)

/-- The update of a channel with a reading taken for it (R29 to R36). -/
def updateChannel (r : ChannelRecord) (sync : BitVec 64) (m : TempReading) (c : Channel) : Channel × Option ChannelEvent :=
  if isNewSample c m then
    let c1 := { c with counter := some m.counter }
    match rejection r sync c m with
    | some why => rejectSample r why c1
    | none => (acceptSample r sync m.value c1, if c.state = .failed then some .recovered else none)
  else (c, none)

/-- A channel of the unit. -/
def channelOf (s : State) (i : Nat) : Channel := s.thu.channels.getD i Channel.reset

/-- Post what a channel's update posts. -/
def postChannel (i : Nat) : Option ChannelEvent → State → State
  | some (.failed r), s => post .thermal (.channelFailed i r) s
  | some .recovered, s => post .thermal (.channelRecovered i) s
  | none, s => s

/-- The intake and update of channel `i` on a return pass (R28 to R30). -/
def intakeChannel (table : Bank) (sync : BitVec 64) (input : Memory 8) (i : Nat) (s : State) : State :=
  let r := channelRecord table i
  match r.role, readTemp (activeBank .slotMap s) input r.module r.source with
  | some _, some m =>
    let u := updateChannel r sync m (channelOf s i)
    postChannel i u.2 { s with thu := { s.thu with channels := s.thu.channels.set i u.1 } }
  | _, _ => s

/-! ## Aggregates -/

/-- Whether a channel contributes to an aggregate (R38). -/
def contributes (table : Bank) (s : State) (a i : Nat) : Bool :=
  decide ((channelRecord table i).role = some a)
    && (decide ((channelOf s i).state = .valid) || decide ((channelOf s i).state = .held))

/-- The filtered values that contribute to an aggregate. -/
def contributions (table : Bank) (s : State) (a : Nat) : List Int :=
  ((List.range 24).filter (contributes table s a)).map
    (fun i => match (channelOf s i).filter with
      | some f => filteredValue f.y
      | none => 0)

/-- R38: the mean, halves going up. -/
def meanOf (vs : List Int) : Int := (2 * vs.sum + (vs.length : Int)) / (2 * (vs.length : Int))

/-- R40: the mean clamped to 10,000..50,000, with the CLAMP mark. -/
def clampMean (m : Int) : Temperature :=
  if m < 10000 then ⟨10000, false, true⟩ else if 50000 < m then ⟨50000, false, true⟩ else ⟨m, false, false⟩

/-- R38, R39: the aggregate after a pass. -/
def nextAggregate (vs : List Int) (g : Aggregate) : Aggregate :=
  if vs = [] then
    if g.everFresh then { g with temp := { g.temp with stale := true } } else Aggregate.reset
  else ⟨clampMean (meanOf vs), true⟩

/-- An aggregate of the unit, in the order of the CHANNELS page, part 6. -/
def aggregateOf (s : State) (a : Nat) : Aggregate := s.thu.aggregates.getD a Aggregate.reset

/-- R41: whether an arm uses an aggregate: its own scales, and WORKPIECE and AIR. -/
def usesAggregate (x : Arm) (a : Nat) : Bool :=
  match x with
  | .a => decide (a < 3) || decide (6 ≤ a)
  | .b => decide (3 ≤ a)

/-- R41: a stale onset posts THERMAL and raises THERMAL under the hold mask on each arm that uses the aggregate. -/
def staleOnset (a : Nat) (s : State) : State :=
  let s1 := post .thermal (.aggregateStale a) s
  let s2 := whenDo (usesAggregate .a a) (raiseMasked .a .thermal .thermal) s1
  whenDo (usesAggregate .b a) (raiseMasked .b .thermal .thermal) s2

/-- The aggregation of one role on a return pass (R38 to R41). -/
def aggregateRole (table : Bank) (a : Nat) (s : State) : State :=
  let former := aggregateOf s a
  let now := nextAggregate (contributions table s a) former
  let s1 := { s with thu := { s.thu with aggregates := s.thu.aggregates.set a now } }
  whenDo (!former.temp.stale && now.temp.stale) (staleOnset a) s1

/-- R47: every channel is put into NO_DATA before the first intake after a CHANNEL TABLE activation. -/
def restartChannels (s : State) : State :=
  if s.thu.restart then
    { s with thu := { s.thu with channels := List.replicate 24 Channel.reset, restart := false } }
  else s

/-- A step of the THU's part of a return pass. -/
inductive ThermalStep
  | restart
  | channel (i : Nat)
  | aggregate (a : Nat)
deriving DecidableEq, Repr

/-- R27: the THU's steps on a return pass: intake and update of every channel, then the aggregation. -/
def thermalSteps (channels aggregates : List Nat) : List ThermalStep :=
  .restart :: ((arrange 24 channels).map .channel ++ (arrange 8 aggregates).map .aggregate)

/-- Take one step; without an active CHANNEL TABLE the THU does nothing (R27). -/
def takeThermal (sync : BitVec 64) (input : Memory 8) (t : ThermalStep) (s : State) : State :=
  match activeBank .channelTable s with
  | none => s
  | some table =>
    match t with
    | .restart => restartChannels s
    | .channel i => intakeChannel table sync input i s
    | .aggregate a => aggregateRole table a s

/-- Steps of the THU, one after the other (R27). -/
def thermalPass (sync : BitVec 64) (input : Memory 8) (steps : List ThermalStep) (s : State) : State :=
  steps.foldl (fun s t => takeThermal sync input t s) s

/-! ## Applied thermal sets -/

/-- The index of an arm's X scale aggregate; Y and Z follow. -/
def scaleIndex : Arm → Nat
  | .a => 0
  | .b => 3

/-- R43: an advance copies the five aggregates with their marks and increases the epoch by one. -/
def advance (x : Arm) (s : State) : State :=
  s.onThu x (fun t => { t with applied :=
    { scaleX := (aggregateOf s (scaleIndex x)).temp, scaleY := (aggregateOf s (scaleIndex x + 1)).temp,
      scaleZ := (aggregateOf s (scaleIndex x + 2)).temp, workpiece := (aggregateOf s 6).temp,
      air := (aggregateOf s 7).temp, epoch := t.applied.epoch + 1 } })

/-- The auto-advance interval of the active STATION RECORD as a countdown: 0 leaves it stopped (R45). -/
def intervalCountdown (s : State) : Option Nat :=
  if activeField (·.autoInterval) s = 0 then none else some (activeField (·.autoInterval) s)

/-- R44, R45: the countdown is reloaded with the interval. -/
def reloadCountdown (x : Arm) (s : State) : State := s.onThu x (fun t => { t with countdown := intervalCountdown s })

/-- R45: an auto-advance countdown that has reached 0 is due to expire. -/
def advanceDue (s : State) (x : Arm) : Bool := decide ((s.thuOf x).countdown = some 0)

/-- R45: the expiry advances the arm when its bracket is CLOSED, or sets the deferred mark and stops when it is OPEN. -/
def autoAdvance (x : Arm) (s : State) : State :=
  if advanceDue s x then
    if (s.tcuOf x).bracketOpen then s.onThu x (fun t => { t with countdown := none, deferred := true })
    else reloadCountdown x (advance x s)
  else s

/-- R46: the close of a bracket takes an owed advance and, in RUN, restarts the countdown. -/
def takeDeferred (x : Arm) (s : State) : State :=
  if (s.thuOf x).deferred then
    let s1 := (advance x s).onThu x (fun t => { t with deferred := false })
    if s.riu.station = .run then reloadCountdown x s1 else s1
  else s

/-- R45: on a valid cycle frame in RUN a running countdown decreases by one. -/
def tickCountdown (x : Arm) (s : State) : State :=
  s.onThu x (fun t => { t with countdown := t.countdown.map (fun n => n - 1) })

end Sys2Proof.Machine
end

