-- ==== Sys2Proof/Machine/Correction.lean ====
section
/-! DEFINITION. The Correction Engine (01): the error tables, the five stages, the sticky flags, the soft limits, the
tip history and the arm position block. -/
namespace Sys2Proof.Machine

/-! ## Error tables -/

/-- R8: a table of two zero nodes is the identity table. -/
def isIdentity (b : Bank) (i : Nat) : Bool :=
  decide (tableCount b i = 2) && decide (tableNode b i 0 = 0) && decide (tableNode b i 1 = 0)

/-- A table's value at a position, and whether the lookup raised the range condition (R9, R10). -/
structure Lookup where
  value  : Int
  beyond : Bool
deriving DecidableEq, Repr

/-- R9: the interpolation at `u` nm after the start, inside the mapped span. -/
def interpolate (b : Bank) (i u : Nat) : Int :=
  let n := u / tablePitch b i
  if n = tableCount b i - 1 then tableNode b i n
  else tableNode b i n
    + roundDiv ((tableNode b i (n + 1) - tableNode b i n) * ((u % tablePitch b i : Nat) : Int)) (tablePitch b i)

/-- R8, R9, R10: the lookup of error table `i` at a position. -/
def lookup (b : Bank) (i : Nat) (pos : Int) : Lookup :=
  let start := tableStart b i
  let last := tableCount b i - 1
  if isIdentity b i then ⟨0, false⟩
  else if pos < start then ⟨tableNode b i 0, true⟩
  else if start + ((last * tablePitch b i : Nat) : Int) < pos then ⟨tableNode b i last, true⟩
  else ⟨interpolate b i (pos - start).toNat, false⟩

/-! ## The five stages -/

/-- Stage 1 (R11): the nominal position of an axis. -/
def nominal (a : AxisRecord) (count : Int) : Int := a.zero + roundDiv (count * (a.pitch : Int)) 1000

/-- Stage 2 (R12): the expansion of the axis's scale at its applied temperature. -/
def scaled (a : AxisRecord) (temp : Int) (p : Int) : Int :=
  p + roundDiv (p * (a.alpha : Int) * (temp - 20000)) 1000000000000

/-- What one pass of the chain gives. -/
structure Chain where
  g         : Vec3
  t         : Vec3
  beyond    : BitVec 3
  out       : Vec3
  saturated : BitVec 3
deriving DecidableEq, Repr

/-- The three stage-2 positions of a sample. -/
def stage2 (b : Bank) (applied : AppliedSet) (c : Vec3) : Vec3 :=
  ⟨scaled (axisRecord b 0) applied.scaleX.value (nominal (axisRecord b 0) c.x),
   scaled (axisRecord b 1) applied.scaleY.value (nominal (axisRecord b 1) c.y),
   scaled (axisRecord b 2) applied.scaleZ.value (nominal (axisRecord b 2) c.z)⟩

/-- Stage 3 (R13, R14): the machine position. -/
def stage3 (b : Bank) (q : Vec3) : Vec3 :=
  let e (i : Nat) (p : Int) : Int := (lookup b i p).value
  ⟨q.x + e 0 q.x + e 3 q.y + e 6 q.z
      + (roundDiv (squareXY b * q.y) 1000000000 + roundDiv (squareXZ b * q.z) 1000000000),
   q.y + e 1 q.x + e 4 q.y + e 7 q.z + roundDiv (squareYZ b * q.z) 1000000000,
   q.z + e 2 q.x + e 5 q.y + e 8 q.z⟩

/-- Stage 4 (R15, R16): the tip position, from the machine position, the angles at q_Y and the tip offset. -/
def stage4 (b : Bank) (q g o : Vec3) : Vec3 :=
  let tx := (lookup b 9 q.y).value
  let ty := (lookup b 10 q.y).value
  let tz := (lookup b 11 q.y).value
  ⟨g.x + o.x + (roundDiv (ty * o.z) 1000000000 - roundDiv (tz * o.y) 1000000000),
   g.y + o.y + (roundDiv (tz * o.x) 1000000000 - roundDiv (tx * o.z) 1000000000),
   g.z + o.z + (roundDiv (tx * o.y) 1000000000 - roundDiv (ty * o.x) 1000000000)⟩

/-- R10: the axes whose tables were looked up beyond their span; the angular tables record Y. -/
def beyondAxes (b : Bank) (q : Vec3) : BitVec 3 :=
  let out (i : Nat) (p : Int) : Bool := (lookup b i p).beyond
  axisSet (out 0 q.x || out 1 q.x || out 2 q.x)
    (out 3 q.y || out 4 q.y || out 5 q.y || out 9 q.y || out 10 q.y || out 11 q.y)
    (out 6 q.z || out 7 q.z || out 8 q.z)

/-- Stage 5 (R17, R18): the three output coordinates. -/
def stage5 (m : Rounding) (t : Vec3) : Vec3 := ⟨outputCoord m t.x, outputCoord m t.y, outputCoord m t.z⟩

/-- R18: the axes whose output saturated. -/
def saturatedAxes (m : Rounding) (t : Vec3) : BitVec 3 :=
  axisSet (outputSaturates m t.x) (outputSaturates m t.y) (outputSaturates m t.z)

/-- The whole chain on one sample. -/
def chain (b : Bank) (applied : AppliedSet) (o : Vec3) (m : Rounding) (c : Vec3) : Chain :=
  let q := stage2 b applied c
  let g := stage3 b q
  let t := stage4 b q g o
  ⟨g, t, beyondAxes b q, stage5 m t, saturatedAxes m t⟩

/-! ## Onsets -/

/-- R19, R20, R62: the onsets of saturation and of the range condition: the sticky flags, one NUMERIC posting, and the
causes under the hold mask. -/
def numericOnset (x : Arm) (sat beyond : BitVec 3) (s : State) : State :=
  let c := s.cenOf x
  let onSat := decide (sat ≠ 0) && !c.satSeen
  let onBeyond := decide (beyond ≠ 0) && !c.rangeSeen
  let s1 := s.onCen x (fun c => { c with satSeen := c.satSeen || onSat, rangeSeen := c.rangeSeen || onBeyond })
  let s2 := whenDo (onSat || onBeyond)
    (post .numeric (.numeric x onSat onBeyond (if onSat then sat else 0) (if onBeyond then beyond else 0))) s1
  whenDo onBeyond (raiseMasked x .mapRange .mapRange) (whenDo onSat (raiseMasked x .numeric .numeric) s2)

/-- R22: the violated (axis, side) pairs of a machine position. -/
def limitCondition (b : Bank) (g : Vec3) : BitVec 6 :=
  let X := axisRecord b 0
  let Y := axisRecord b 1
  let Z := axisRecord b 2
  limitPairs (decide (g.x < X.lo)) (decide (X.hi < g.x)) (decide (g.y < Y.lo)) (decide (Y.hi < g.y))
    (decide (g.z < Z.lo)) (decide (Z.hi < g.z))

/-- R22, R112: the soft-limit check; the onset posts LIMIT_x and raises LIMIT unless creep entry LIMIT stands. -/
def softLimits (x : Arm) (b : Bank) (g : Vec3) (s : State) : State :=
  let former := (s.cenOf x).limit
  let now := limitCondition b g
  let s1 := s.onCen x (fun c => { c with limit := now })
  whenDo (decide (former = 0) && decide (now ≠ 0))
    (fun s => whenDo (!hasCreepLimit (s.mgdOf x).creep) (raise x .limit) (post (.limit x) (.limits now) s)) s1

/-! ## History -/

/-- R24: entries of another map generation are removed; then an entry whose capture time is not later than the newest's
is not appended; a fifth entry removes the oldest. The mark says whether the entry was appended. -/
def appendEntry (h : List HistoryEntry) (e : HistoryEntry) : List HistoryEntry × Bool :=
  let kept := h.filter (fun o => decide (o.generation = e.generation))
  match kept.getLast? with
  | some newest =>
    if newest.capture.toNat < e.capture.toNat then
      ((kept ++ [e]).drop (kept.length + 1 - Config.historyCapacity), true)
    else (kept, false)
  | none => ([e], true)

/-- R55, R51: after the pass's append, a LATCHED trigger either has a qualifying new entry, and is to be resolved, or
ages. -/
def resolutionStep (x : Arm) (capture : Option (BitVec 64)) (s : State) : State :=
  match triggerOf s x, capture with
  | .latched l, some c =>
    if l.contact ≤ (c.toNat : Int) then s.onTcu x (fun u => { u with touchDue := .resolve }) else ageLatch x s
  | _, _ => ageLatch x s

/-! ## The position block -/

/-- The bytes of an arm position block (10.3). -/
def positionBytes (pos : Vec3) (capture : BitVec 64) (epoch : BitVec 16) (flags : BitVec 6) : List Byte :=
  leBytesInt 4 pos.x ++ leBytesInt 4 pos.y ++ leBytesInt 4 pos.z ++ leBytes 8 capture.toNat
    ++ leBytes 2 epoch.toNat ++ leBytes 2 flags.toNat

/-- R12: whether any applied scale temperature of a set carries STALE. -/
def scaleStale (a : AppliedSet) : Bool := a.scaleX.stale || a.scaleY.stale || a.scaleZ.stale
/-- R12: whether any applied scale temperature of a set carries CLAMP. -/
def scaleClamp (a : AppliedSet) : Bool := a.scaleX.clamp || a.scaleY.clamp || a.scaleZ.clamp

/-- R15: the offset that the return pass of the frame in flight uses for an arm's mounted tip: the former one where that
frame's request has changed it, otherwise the record's. -/
def passOffset (former : Option FormerOffset) (s : State) (t : Nat) : Vec3 :=
  match former with
  | some o => if o.tip = t then o.offset else (tipOf s t).offset
  | none => (tipOf s t).offset

/-- The offset of the mounted tip; zero with no tip (R15). -/
def mountedOffset (s : State) (x : Arm) : Vec3 :=
  match mountedTip s x with
  | some t => passOffset (s.riu.inFlight.bind (fun n => n.former.get x)) s t
  | none => ⟨0, 0, 0⟩

/-- The position flags of a valid pass (R23). -/
def passFlags (s : State) (x : Arm) (r : Chain) : BitVec 6 :=
  let a := (s.thuOf x).applied
  positionFlags true (decide (r.beyond ≠ 0)) (decide (r.saturated ≠ 0)) (mountedTip s x).isNone (scaleStale a) (scaleClamp a)

/-- What the CEN gives on a pass: the position block's bytes, the state, and the chain's results, which the onsets, the
soft limits and the MGD take (R26). -/
structure Corrected where
  block : List Byte
  state : State
  chain : Option Chain

/-- The off form (R2). -/
def offForm (x : Arm) (s : State) : List Byte := positionBytes ⟨0, 0, 0⟩ 0 (s.thuOf x).applied.epoch 0

/-- R4: a pass with an invalid sample. -/
def correctInvalid (x : Arm) (r : ReaderReason) (capture : BitVec 64) (s : State) : Corrected :=
  let onset := !(s.cenOf x).reader
  let s1 := s.onCen x (fun c => { c with reader := true })
  let s2 := whenDo onset (post (.reader x) (.reader r)) (raise x .reader s1)
  ⟨positionBytes ⟨0, 0, 0⟩ capture (s.thuOf x).applied.epoch 0, resolutionStep x none s2, none⟩

/-- R1, R11 to R18, R23, R24: a pass with a valid sample, but for the onsets and the soft limits. -/
def correctValid (x : Arm) (f : ArmInForce) (m : ArmSample) (s : State) : Corrected :=
  let applied := (s.thuOf x).applied
  let r := chain f.bank applied (mountedOffset s x) (roundingMode s) m.counts
  let flags := passFlags s x r
  let entry : HistoryEntry := ⟨r.t, m.capture, flags, mountedRef s x, f.generation, applied.epoch⟩
  let appended := appendEntry (s.cenOf x).history entry
  let s1 := s.onCen x (fun c => { c with reader := false, history := appended.1 })
  ⟨positionBytes r.out m.capture applied.epoch flags,
    resolutionStep x (if appended.2 then some m.capture else none) s1, some r⟩

/-- The CEN's part of a return pass for one arm (R1 to R4, R26). -/
def correctArm (x : Arm) (input : Memory 8) (s : State) : Corrected :=
  if s.riu.station = .run then
    match (s.cenOf x).inForce with
    | none => ⟨offForm x s, resolutionStep x none s, none⟩
    | some f =>
      match readSample (activeBank .slotMap s) input x with
      | .invalid r capture => correctInvalid x r capture s
      | .valid m => correctValid x f m s
  else ⟨offForm x s, s, none⟩

end Sys2Proof.Machine
end

