-- ==== Sys2Proof/Machine/Touch.lean ====
section
/-! DEFINITION. The Touch Capture Unit (03): trigger edges, the resolution of a touch, point building, the point queue
and its drain. -/
namespace Sys2Proof.Machine

/-! ## Edges -/

/-- R50: the latch record made at an edge; the latency is that of the tip mounted at the edge. DESIGN CHOICE (log 35): with
no tip mounted at the edge, which R95 can bring about and for which R50 gives no latency, it is 0, so that t' = t_trg. -/
def makeLatch (s : State) (x : Arm) : Latch :=
  let latency := match mountedTip s x with
    | some t => (tipOf s t).latency
    | none => 0
  { trg := s.riu.clock, contact := (s.riu.clock.toNat : Int) - (latency : Int), seq := (s.tcuOf x).nextSeq, age := 0,
    double := false, disarmAfter := false, feature := (s.tcuOf x).feature }

/-- R48: an edge is acted on when the station has an address, the arm has a bank in force, and the edge has its
polarity. -/
def edgeActs (s : State) (x : Arm) (rising : Bool) : Bool :=
  decide (s.riu.station ≠ .unaddressed) &&
    match armBank x s with
    | some b => decide (polarityRising b = rising)
    | none => false

/-- R49 to R53: an edge of the arm's polarity, by trigger state. -/
def takeEdge (x : Arm) (s : State) : State :=
  match triggerOf s x with
  | .disarmed => post .strayTrigger (.stray x) s
  | .armed => s.onTcu x (fun u => { u with trigger := .latched (makeLatch s x), nextSeq := u.nextSeq + 1 })
  | .latched l => setTrigger x (.latched { l with double := true }) s
  | .rearm _ => s
  | .suppressed => s

/-! ## Building the point -/

/-- R55: the interpolated coordinate between two entries at the contact time. -/
def between (pa pb contact ta tb : Int) : Int :=
  if tb ≤ ta then pb else pa + roundDiv ((pb - pa) * (contact - ta)) (tb - ta).toNat

/-- R55: the newest entry, other than the new one, whose capture time is at or before the contact time. -/
def bracketEntry (h : List HistoryEntry) (contact : Int) : Option HistoryEntry :=
  h.dropLast.reverse.find? (fun e => decide ((e.capture.toNat : Int) ≤ contact))

/-- R61: a cell position normalised to 20 °C on one axis. -/
def normalised (c o : Int) (alpha : Nat) (temp : Int) : Int :=
  c - roundDiv ((c - o) * (alpha : Int) * (temp - 20000)) 1000000000000

/-- R60, R61: the position of a point before rounding. -/
def pointPosition (s : State) (x : Arm) (p : Vec3) : Vec3 :=
  let c := match armBank x s with
    | some b => cellTransform b p
    | none => p
  let w := s.tcu.workpiece
  let temp := (s.thuOf x).applied.workpiece.value
  if w.valid then
    ⟨normalised c.x w.origin.x w.coefficient temp, normalised c.y w.origin.y w.coefficient temp,
     normalised c.z w.origin.z w.coefficient temp⟩
  else c

/-- R63: the requalification test of a point made with a tip. -/
def requalify (s : State) (x : Arm) (tip : Option TipRef) : Bool :=
  match tip with
  | none => false
  | some t =>
    let band := stationField (·.band) s
    decide (band ≠ 0) &&
      decide (band < ((s.thuOf x).applied.air.value - ((tipOf s t.id).airTemp : Int)).natAbs)

/-- How a touch was resolved (R55 to R57): its entries and the flags that follow from them. -/
structure Touch where
  latch       : Latch
  newest      : HistoryEntry
  other       : Option HistoryEntry
  position    : Vec3
  unbracketed : Bool
  gap         : Bool
  late        : Bool

/-- Whether some entry used by a touch carries a flag. -/
def touchFlag (t : Touch) (f : BitVec 6 → Bool) : Bool := f t.newest.flags || (t.other.map (fun e => f e.flags)).getD false

/-- R64: the point record of a touch. -/
def buildPoint (s : State) (x : Arm) (t : Touch) : Point :=
  let a := (s.thuOf x).applied
  let m := roundingMode s
  let pos := pointPosition s x t.position
  { arm := x, seq := t.latch.seq, tip := t.newest.tip, feature := t.latch.feature, epoch := a.epoch,
    generation := t.newest.generation, trg := t.latch.trg, pos := stage5 m pos,
    flags := pointFlags t.unbracketed t.gap t.late t.latch.double (touchFlag t flagBeyond)
      (decide (saturatedAxes m pos ≠ 0)) (touchFlag t flagStale || a.workpiece.stale || a.air.stale)
      (touchFlag t flagClamp || a.workpiece.clamp || a.air.clamp) (requalify s x t.newest.tip) (!s.tcu.workpiece.valid) }

/-- R57, R66: a point lost: POINT_LOST is posted, and the cause raised under the mask. -/
def losePoint (x : Arm) (seq : BitVec 16) (why : LostReason) (s : State) : State :=
  raiseMasked x .pointLost .pointLost (post .pointLost (.pointLost x seq why) s)

/-- R66: a built point joins the queue at the tail, or is dropped at a full queue. -/
def joinQueue (p : Point) (s : State) : State :=
  if s.tcu.queue.length < Config.queueCapacity then { s with tcu := { s.tcu with queue := s.tcu.queue ++ [p] } }
  else losePoint p.arm p.seq .queueFull s

/-- R59, R52: the latch record is discarded; the trigger goes to DISARMED under the disarm-after mark, otherwise to REARM
with the countdown loaded. -/
def endTouch (x : Arm) (l : Latch) (s : State) : State :=
  s.onTcu x (fun u => { u with
    trigger := if l.disarmAfter then .disarmed else .rearm (match armBank x s with
      | some b => rearmInterval b
      | none => 0),
    touchDue := .none })

/-- R60 to R66: build the point of a touch, note a saturation onset (R62), queue it, and end the touch. -/
def finishTouch (x : Arm) (t : Touch) (s : State) : State :=
  let sat := saturatedAxes (roundingMode s) (pointPosition s x t.position)
  endTouch x t.latch (joinQueue (buildPoint s x t) (numericOnset x sat 0 s))

/-- R55, R56: the touch resolved from the new entry `b`, bracketed where the history allows. -/
def touchFrom (s : State) (l : Latch) (h : List HistoryEntry) (b : HistoryEntry) : Touch :=
  match bracketEntry h l.contact with
  | none => ⟨l, b, none, b.t, true, false, false⟩
  | some a =>
    let ta : Int := a.capture.toNat
    let tb : Int := b.capture.toNat
    ⟨l, b, some a,
      ⟨between a.t.x b.t.x l.contact ta tb, between a.t.y b.t.y l.contact ta tb, between a.t.z b.t.z l.contact ta tb⟩,
      false, decide ((2 * cyclePeriodNs s : Nat) < tb - ta), false⟩

/-- TOUCH_RESOLVE (R55, R56, R59): a LATCHED trigger whose new entry qualifies is resolved from it. -/
def resolveTouch (x : Arm) (s : State) : State :=
  match (s.tcuOf x).touchDue, triggerOf s x, (s.cenOf x).history.getLast? with
  | .resolve, .latched l, some b => finishTouch x (touchFrom s l (s.cenOf x).history b) s
  | _, _, _ => s

/-- R57, R58: a LATCHED trigger resolved late, from the newest entry, or lost for want of one. -/
def lateTouch (x : Arm) (s : State) : State :=
  match triggerOf s x with
  | .latched l =>
    match (s.cenOf x).history.getLast? with
    | some e => finishTouch x ⟨l, e, none, e.t, false, false, true⟩ s
    | none => endTouch x l (losePoint x l.seq .noPosition s)
  | _ => s

/-- LATE_RESOLUTION (R57): the latch age has reached the latch limit on the latest return pass. -/
def lateResolution (x : Arm) (s : State) : State := if (s.tcuOf x).touchDue = .late then lateTouch x s else s

/-! ## Rearm -/

/-- R52: on a valid cycle frame a rearm countdown decreases by one. -/
def tickRearm (x : Arm) (s : State) : State :=
  match triggerOf s x with
  | .rearm n => setTrigger x (.rearm (n - 1)) s
  | _ => s

/-- REARM_EXPIRY (R52): a countdown that has reached 0 arms the trigger. -/
def rearmExpiry (x : Arm) (s : State) : State := if triggerOf s x = .rearm 0 then setTrigger x .armed s else s

/-! ## The drain -/

/-- The tip fields of a point record: id (0 for none) and revision. -/
def tipBytes : Option TipRef → List Byte
  | some t => [BitVec.ofNat 8 t.id, t.revision]
  | none => [0, 0]

/-- The bytes of a point record (10.3). -/
def pointBytes (p : Point) : List Byte :=
  [BitVec.ofNat 8 (armCode p.arm)] ++ tipBytes p.tip ++ [p.feature] ++ leBytes 2 p.seq.toNat ++ leBytes 2 p.epoch.toNat
    ++ leBytes 2 p.generation.toNat ++ leBytes 2 p.flags.toNat ++ leBytes 8 p.trg.toNat
    ++ leBytesInt 4 p.pos.x ++ leBytesInt 4 p.pos.y ++ leBytesInt 4 p.pos.z

/-- An empty point slot (R172): byte 0 is 0xFF, the others zero. -/
def emptyPointBytes : List Byte := 255 :: List.replicate 31 0

/-- Write bytes into the frame that leaves at P1 on this return pass. -/
def writeReturn (off : Nat) (bytes : List Byte) (s : State) : State :=
  { s with riu := { s.riu with sent1 := s.riu.sent1.map (fun f => { f with frame := writePayload off bytes f.frame }) } }

/-- Write point records into consecutive point slots from slot `i` on. -/
def writePoints (window : Nat) : Nat → List Point → State → State
  | _, [], s => s
  | i, p :: ps, s => writePoints window (i + 1) ps (writeReturn (window + windowPoint i) (pointBytes p) s)

/-- POINT_DRAIN (R67): up to N records leave the head of the queue into the first point slots of the return pass that has
not drained yet; the slots without a record stay empty, as the pass wrote them. -/
def drainPoints (s : State) : State :=
  match s.tcu.drainDue with
  | none => s
  | some window =>
    let n := stationField (·.pointSlots) s
    let s1 := writePoints window 0 (s.tcu.queue.take n) s
    { s1 with tcu := { s1.tcu with queue := s.tcu.queue.drop n, drainDue := none } }

end Sys2Proof.Machine
end

