-- ==== Sys2Proof/Machine/Ring.lean ====
section
/-! DEFINITION. The Ring Interface Unit's supervision of frames (section 7.7), the passing of time, the lines out of the
ports, and the entries into CONFIG and RUN. -/
namespace Sys2Proof.Machine

/-! ## Ring loss -/

/-- R90: what the onset of ring loss does to a session. -/
def sessionRingLoss (x : Arm) (s : State) : State :=
  if inStep (sessionOf s x) || decide ((sessionOf s x).state = .fault) then
    enterFault x .ring (.fault .ring none none 0) s
  else s

/-- R150: the onset of ring loss. `bFirst` says which arm's touch is resolved first (log 5). -/
def ringLossOnset (bFirst : Bool) (s : State) : State :=
  let s1 := raise .b .ring (raise .a .ring { s with riu := { s.riu with ringLoss := true } })
  let s2 := sessionRingLoss .b (sessionRingLoss .a s1)
  let s3 := if bFirst then lateTouch .a (lateTouch .b s2) else lateTouch .b (lateTouch .a s2)
  post .ring .ringLost s3

/-- R149: `n` missing frames more; reaching the limit while ring loss is absent begins ring loss. -/
def countMissing (n : Nat) (bFirst : Bool) (s : State) : State :=
  let m := min Config.countCeiling (s.riu.missed + n)
  let s1 := { s with riu := { s.riu with missed := m } }
  if s.riu.ringLoss = false ∧ stationField (·.ringLimit) s ≤ m then ringLossOnset bFirst s1 else s1

/-- R149: frame supervision runs exactly while a deadline is held. -/
def supervised (s : State) : Bool := s.riu.deadline.isSome

/-- R149: a missing frame that arrived at P1: the count grows and the deadline starts anew from the arrival. -/
def missingArrival (bFirst : Bool) (s : State) : State :=
  if supervised s then
    countMissing 1 bFirst
      { s with riu := { s.riu with deadline := some (clockAfter s.riu.clock (3 * periodNs s / 2)) } }
  else s

/-- MISSED_FRAME_DEADLINE (R149): the clock runs to the deadline, the count grows, the deadline moves on by one period. -/
def reachDeadline (bFirst : Bool) (s : State) : State :=
  match s.riu.deadline with
  | none => s
  | some d =>
    countMissing 1 bFirst
      { s with riu := { s.riu with
        clock := clockAfter s.riu.clock (timeUntil s.riu.clock d), deadline := some (clockAfter d (periodNs s)) } }

/-- R149, R151: a valid cycle frame at P1 sets the count to 0 and the deadline anew, and ends ring loss. -/
def validArrival (s : State) : State :=
  let s1 := { s with riu := { s.riu with
    missed := 0, deadline := s.riu.deadline.map (fun _ => clockAfter s.riu.clock (3 * periodNs s / 2)), ringLoss := false } }
  if s.riu.ringLoss then post .ring .ringRestored s1 else s1

/-- Time passes (R142). Deadlines the clock leaves behind are taken on the way, the first at its time and each next one
period later; a deadline just reached is left to the sender. DESIGN CHOICE (log 3): where that begins ring loss, arm A's touch
is resolved before arm B's. -/
def runClock (elapsed : Nat) (s : State) : State :=
  let run (s : State) : State := { s with riu := { s.riu with clock := clockAfter s.riu.clock elapsed } }
  match s.riu.deadline with
  | none => run s
  | some d =>
    let left := timeUntil s.riu.clock d
    if elapsed ≤ left then run s
    else
      let k := (elapsed - left - 1) / periodNs s + 1
      countMissing k false
        (run { s with riu := { s.riu with deadline := some (clockAfter d (k * periodNs s)) } })

/-! ## The lines -/

/-- A new frame has arrived: neither port has sent anything of it yet (log 21). -/
def clearLines (s : State) : State := { s with riu := { s.riu with sent1 := none, sent2 := none } }

/-- Send a frame out at P1; while P1's link is down it is discarded (R136). -/
def sendP1 (ok : Bool) (f : RingFrame) (s : State) : State :=
  { s with riu := { s.riu with sent1 := if s.riu.p1Up then some ⟨f, ok⟩ else none } }

/-- Send a frame out at P2, whose link is up. -/
def sendP2 (ok : Bool) (f : RingFrame) (s : State) : State := { s with riu := { s.riu with sent2 := some ⟨f, ok⟩ } }

/-- R141: one more cycle frame turned around, the count held at 65,535. -/
def countTurned (s : State) : State :=
  { s with riu := { s.riu with turned := min Config.countCeiling (s.riu.turned + 1) } }

/-- Whether a frame can arrive at a port: not during power-on reset, when it is discarded (R152), and not over a link that
is down (log 18). -/
def portOpen (p : RingPort) (s : State) : Bool :=
  !s.riu.inReset && (match p with
    | .p1 => s.riu.p1Up
    | .p2 => s.riu.p2Up)

/-! ## Entries into the station states -/

/-- R111: cause MODE on both arms. -/
def addMode (s : State) : State := raise .b .mode (raise .a .mode s)

/-- R144: the station takes its address and enters CONFIG. -/
def takeAddress (a : Byte) (s : State) : State :=
  addMode { s with riu := { s.riu with address := some a, station := .config } }

/-- R147: the entry into RUN: each arm's countdown whose deferred mark is clear is loaded with the interval. -/
def startCountdown (x : Arm) (s : State) : State := if (s.thuOf x).deferred then s else reloadCountdown x s

/-- R147: the station enters RUN. -/
def enterRun (s : State) : State :=
  startCountdown .b (startCountdown .a { s with riu := { s.riu with station := .run } })

/-- R148, R83: what the entry into CONFIG from RUN does to an arm: a waiting session is cancelled, the trigger stands
down, the countdown stops. DESIGN CHOICE (log 37): taken on the frame whose tick brought the countdown to 0, before the
expiry, it stops the countdown (R45), so that the expiry, no longer due, takes no advance and sets no deferred mark. -/
def leaveRun (x : Arm) (s : State) : State :=
  let s1 := if (sessionOf s x).state = .waitZone then cancelWaiting x s else s
  (onTrigger x standDown s1).onThu x (fun t => { t with countdown := none })

/-- R148: the station enters CONFIG from RUN. -/
def enterConfig (s : State) : State :=
  addMode (leaveRun .b (leaveRun .a { s with riu := { s.riu with station := .config } }))

/-! ## Resets -/

/-- R96: the tip and the port of a step that a warm reset interrupts are made unknown. -/
def interruptSession (x : Arm) (s : State) : State :=
  let c := sessionOf s x
  match c.state with
  | .drop =>
    match c.dropTip, c.dropPort with
    | some t, some p => setPort p .unverified (moveTip t .unknown s)
    | _, _ => s
  | .pick =>
    match c.pickTip, c.pickPort with
    | some t, some p => setPort p .unverified (moveTip t .unknown s)
    | _, _ => s
  | _ => s

/-- R120: a warm reset cuts off a check. -/
def cutCheck (t : TableState) : TableState :=
  match t.state with
  | .checking _ _ _ => { t with state := .unchecked }
  | _ => t

/-- R171: a warm reset clears every source and keeps the priorities and the report level. -/
def clearEvents (e : Evu) : Evu := { e with sources := e.sources.map clearSource }

/-- The CEN's warm reset (01, after R26); the bank in force is the Table Store's and stays. -/
def warmCen (c : CenArm) : CenArm := { CenArm.reset with inForce := c.inForce }

/-- The PCC's warm reset of an arm (R96, R79): session IDLE, head consistent, the last reading kept. -/
def warmPcc (p : PccArm) : PccArm := { p with session := Session.idle, consistent := true, changeDue := false }

/-- WARM_RESET (R153, R160): every block takes its warm reset values, the station is in CONFIG with its address, and MODE
is added to both arms' empty sets (R118). -/
def warmReset (s : State) : State :=
  let s1 := interruptSession .b (interruptSession .a s)
  addMode
    { s1 with
      riu := { s1.riu with station := .config, missed := 0, ringLoss := false, deadline := deadlineFromFrame s1 },
      tbs := s1.tbs.all cutCheck, cen := s1.cen.both warmCen, thu := Thu.reset,
      tcu := { Tcu.reset with workpiece := s1.tcu.workpiece },
      pcc := { s1.pcc with arm := s1.pcc.arm.both warmPcc }, mgd := Mgd.reset, evu := clearEvents s1.evu }

/-- The power-on values of every block (R152), the reset in force. The links and the lines are the world's; a frame being
sent when RESET_N falls is ended with a bad check, the marks `cut1` and `cut2` saying at which port one was (log 16). -/
def powerOn (cut1 cut2 : Bool) (s : State) : State :=
  let end_ (cut : Bool) (l : Option Sent) : Option Sent := l.map (fun f => { f with checkOk := f.checkOk && !cut })
  { State.reset with
    riu := { Riu.reset with
      inReset := true, p1Up := s.riu.p1Up, p2Up := s.riu.p2Up, sent1 := end_ cut1 s.riu.sent1, sent2 := end_ cut2 s.riu.sent2 },
    pending := s.pending }

end Sys2Proof.Machine
end

