-- ==== Sys2Proof/Machine/Status.lean ====
section
/-! DEFINITION. The pages of STATUS_READ (R161 to R163), word by word (10.5). Words beyond those a page gives are
written as zero by the reply slot. -/
namespace Sys2Proof.Machine

/-- An absent unsigned word (10.5). -/
def absentWord : Word := 0xFFFFFFFF

/-- An absent signed temperature word (10.5). -/
def absentTemp : Word := 0x80000000

/-- A word from an optional number. -/
def optWord : Option Nat → Word
  | some n => word n
  | none => absentWord

/-- A byte code with 255 for none, as drop port and holder use it (10.2, 10.5; log 13). -/
def portCode (p : Option Nat) : Nat := p.getD 255

/-- A word from four byte codes, the first in bits 0 to 7. -/
def packBytes (b0 b1 b2 b3 : Nat) : Word := word (b0 % 256 + 256 * (b1 % 256) + 65536 * (b2 % 256) + 16777216 * (b3 % 256))

/-- The words of a bit string, the lowest first. -/
def stringWords : Nat → Nat → List Word
  | 0, _ => []
  | n + 1, v => word v :: stringWords n (v / 2 ^ 32)

/-- Station states (10.1). -/
def stationCode : StationState → Nat
  | .unaddressed => 0
  | .config => 1
  | .run => 2

/-- A signed 40-bit number as its 40 bits. -/
def bits40 (v : Int) : Nat := (BitVec.ofInt 40 v).toNat

/-- The workpiece origin packed as for WORKPIECE_SET. -/
def originString (o : Vec3) : Nat := bits40 o.x + 2 ^ 40 * bits40 o.y + 2 ^ 80 * bits40 o.z

/-- The two words of the supervision deadline. -/
def deadlineWords : Option (BitVec 64) → List Word
  | some d => stringWords 2 d.toNat
  | none => [absentWord, absentWord]

/-- STATION page. -/
def stationPage (s : State) : List Word :=
  [packBytes (stationCode s.riu.station) ((s.riu.address.map BitVec.toNat).getD 0) Config.siliconRevision
    (bitsNat [s.riu.ringLoss, s.riu.p2Up, s.tcu.workpiece.valid])]
    ++ stringWords 2 s.riu.clockAtAlign.toNat
    ++ [word (s.riu.frameAtAlign.toNat + 65536 * s.tcu.queue.length), word (s.riu.missed + 65536 * s.riu.turned)]
    ++ deadlineWords s.riu.deadline ++ stringWords 4 (originString s.tcu.workpiece.origin)
    ++ [word s.tcu.workpiece.coefficient]

/-- Trigger states (10.5). -/
def triggerCode : Trigger → Nat
  | .disarmed => 0
  | .armed => 1
  | .latched _ => 2
  | .rearm _ => 3
  | .suppressed => 4

/-- The latch age or the rearm countdown. -/
def triggerCount : Trigger → Option Nat
  | .latched l => some l.age
  | .rearm n => some n
  | _ => none

/-- The DOUBLE mark. -/
def triggerDouble : Trigger → Bool
  | .latched l => l.double
  | _ => false

/-- The disarm-after mark. -/
def triggerDisarmAfter : Trigger → Bool
  | .latched l => l.disarmAfter
  | _ => false

/-- A temperature with its marks: bits 0 to 23 value, 24 STALE, 25 CLAMP. -/
def tempNat (t : Temperature) : Nat := (BitVec.ofInt 24 t.value).toNat + 2 ^ 24 * bitsNat [t.stale, t.clamp]

/-- ARM page, part 0. -/
def armPage0 (s : State) (x : Arm) : List Word :=
  let c := s.cenOf x
  let t := s.thuOf x
  let u := s.tcuOf x
  [packBytes (tipCode (mountedTip s x)) c.history.length (triggerCode u.trigger)
    (bitsNat [c.satSeen, c.rangeSeen, c.reader, triggerDouble u.trigger, triggerDisarmAfter u.trigger, u.bracketOpen, t.deferred]),
   word (u.nextSeq.toNat + 65536 * u.feature.toNat + 16777216 * c.limit.toNat), optWord (triggerCount u.trigger),
   optWord t.countdown, word (tempNat t.applied.scaleX), word (tempNat t.applied.scaleY), word (tempNat t.applied.scaleZ),
   word (tempNat t.applied.workpiece), word (tempNat t.applied.air), t.applied.epoch.setWidth 32]

/-- The byte of a fault cause; a session without one shows a free value (log 13). -/
def faultByte : Option FaultCause → Nat
  | some c => faultCode c
  | none => Config.noFaultCauseByte.toNat

/-- ARM page, part 1. -/
def armPage1 (s : State) (x : Arm) : List Word :=
  let p := s.pccOf x
  let g := s.mgdOf x
  let c := p.session
  [packBytes (sessionCode c.state) (tipCode c.dropTip) (portCode c.dropPort) (tipCode c.pickTip),
   packBytes (portCode c.pickPort) (faultByte c.fault) ((p.headLast.map headCode).getD 255) (if p.consistent then 0 else 1),
   optWord c.timer, word (p.codeLast.toNat + 65536 * g.latches.toNat), g.causes.setWidth 32, g.creep.setWidth 32]

/-- Channel states (10.5). -/
def channelCode : ChannelState → Nat
  | .noData => 0
  | .valid => 1
  | .held => 2
  | .failed => 3

/-- The three words of a channel. -/
def channelWords (c : Channel) : List Word :=
  [packBytes (channelCode c.state) c.count ((c.reason.map rejectCode).getD 0) ((c.counter.map BitVec.toNat).getD 255),
   (c.filter.map (fun f => BitVec.ofInt 32 (filteredValue f.y))).getD absentTemp,
   (c.filter.map (fun f => BitVec.ofInt 32 f.last)).getD absentTemp]

/-- CHANNELS page, parts 0 to 5: four channels each. -/
def channelsPage (s : State) (p : Nat) : List Word :=
  (List.range 4).flatMap (fun i => channelWords (s.thu.channels.getD (4 * p + i) Channel.reset))

/-- CHANNELS page, part 6: the eight aggregates. -/
def aggregatesPage (s : State) : List Word :=
  s.thu.aggregates.map (fun g => word (tempNat g.temp + 2 ^ 26 * bitsNat [g.everFresh]))

/-- A tip's location code and port byte; a tip in no port shows a free value (log 13). -/
def locationBytes : TipLocation → Nat × Nat
  | .absent => (0, Config.tipsNoPortByte.toNat)
  | .port p => (1, p)
  | .onArm .a => (2, Config.tipsNoPortByte.toNat)
  | .onArm .b => (3, Config.tipsNoPortByte.toNat)
  | .unknown => (4, Config.tipsNoPortByte.toNat)

/-- The seven words of a tip. -/
def tipWords (t : Tip) : List Word :=
  [BitVec.ofInt 32 t.offset.x, BitVec.ofInt 32 t.offset.y, BitVec.ofInt 32 t.offset.z, word t.radius, word t.latency,
   word (t.code.toNat + 65536 * t.airTemp),
   packBytes (bitsNat [t.present]) t.revision.toNat (locationBytes t.location).1 (locationBytes t.location).2]

/-- TIPS page: two tips; after tip 32 the second is returned as zero (R163). -/
def tipsPage (s : State) (first : Nat) : List Word :=
  tipWords (tipOf s first) ++ (if first = 32 then List.replicate 7 0 else tipWords (tipOf s (first + 1)))

/-- A port's code and the tip it names. -/
def portBytes : PortState → Nat × Nat
  | .disabled => (0, 0)
  | .empty => (1, 0)
  | .holds t => (2, t)
  | .unverified => (3, 0)

/-- PORTS page. -/
def portsPage (s : State) : List Word :=
  (List.range 12).map (fun p =>
    let o := match s.pcc.occupancy with
      | some r => if r.getLsbD p then 1 else 0
      | none => 2
    packBytes (portBytes (portOf s p)).1 (portBytes (portOf s p)).2 o 0)

/-- A zone's four bytes. -/
def zoneWord : Zone → Word
  | .free => packBytes 0 255 0 255
  | .held h r w => packBytes 1 (armCode h) (bitsNat [r]) (if w then armCode (otherArm h) else 255)

/-- The code of an inside record. -/
def insideCode : Inside → Nat
  | .outside => 0
  | .inside => 1
  | .unknown => 2

/-- An arm's inside records, 2 bits per zone. -/
def insideNat : List Inside → Nat
  | [] => 0
  | i :: is => insideCode i + 4 * insideNat is

/-- ZONES page. -/
def zonesPage (s : State) : List Word :=
  (List.range 8).map (fun z => zoneWord (zoneOf s z))
    ++ [word (insideNat (s.mgdOf .a).inside), word (insideNat (s.mgdOf .b).inside)]

/-- Eight priorities, 4 bits each. -/
def priorityNat : List SourceState → Nat
  | [] => 0
  | q :: qs => q.priority + 16 * priorityNat qs

/-- EVENTS page. -/
def eventsPage (s : State) (n : Nat) : List Word :=
  [word s.evu.reportLevel, word (pendingSet s), word (overrunSet s), word (priorityNat (s.evu.sources.take 8)),
   word (priorityNat ((s.evu.sources.drop 8).take 8)), word (priorityNat (s.evu.sources.drop 16))]
    ++ ((sourceOf s n).detail.map detailWords).getD [absentWord, absentWord, absentWord]

/-- Staging states (10.5). -/
def stagingCode : StagingState → Nat
  | .empty => 0
  | .unchecked => 1
  | .checking _ _ _ => 2
  | .passed => 3
  | .failed => 4

/-- Words left to examine. -/
def checkLeft : StagingState → Option Nat
  | .checking _ left _ => some left
  | _ => none

/-- The last result's two words. -/
def resultWords : Option CheckResult → List Word
  | none => [0, absentWord]
  | some .passed => [1, absentWord]
  | some (.failedSum v) => [2, v]
  | some (.failedContent o) => [3, word o]

/-- TABLES page. -/
def tablesPage (s : State) (k : TableKind) : List Word :=
  let t := s.tbsOf k
  [word (stagingCode t.state + 256 * bitsNat [t.active.isSome] + 65536 * t.generation.toNat), optWord (checkLeft t.state)]
    ++ resultWords t.lastResult

/-- R161: the page part a STATUS_READ names; none for a page or part outside its codes. -/
def statusPage (s : State) (page selector part : Byte) : Option (List Word) :=
  let n := selector.toNat
  if page = 1 then some (stationPage s)
  else if page = 2 then
    match armOf selector with
    | some x => if part = 0 then some (armPage0 s x) else if part = 1 then some (armPage1 s x) else none
    | none => none
  else if page = 3 then (if n < 6 then some (channelsPage s n) else if n = 6 then some (aggregatesPage s) else none)
  else if page = 4 then (if 1 ≤ n ∧ n ≤ 32 then some (tipsPage s n) else none)
  else if page = 5 then some (portsPage s)
  else if page = 6 then some (zonesPage s)
  else if page = 7 then (if n ≤ 16 then some (eventsPage s n) else none)
  else if page = 8 then (kindOf selector).map (tablesPage s)
  else none

end Sys2Proof.Machine
end

