-- ==== Sys2Proof/Machine/Requests.lean ====
section
/-! DEFINITION. The service requests (08): the codes, the common checks, and what the owner of each request does with it.
An owner answers the state after the request and the reply. -/
namespace Sys2Proof.Machine

/-! ## Codes and replies -/

/-- The request codes of section 8.6. -/
inductive RequestCode
  | stationMode
  | stationReset
  | statusRead
  | tableWrite
  | tableClear
  | tableCheck
  | tableActivate
  | tableRead
  | tipSet
  | tipRemove
  | portSet
  | armTipSet
  | triggerArm
  | triggerDisarm
  | featureOpen
  | featureClose
  | workpieceSet
  | workpieceClear
  | thermalAdvance
  | zoneClaim
  | zoneRelease
  | holdRelease
  | changeBegin
  | changeAbort
  | eventPriority
  | reportLevel
deriving DecidableEq, Repr

/-- A code's byte (10.2). -/
def requestByte : RequestCode → Byte
  | .stationMode => 0x01
  | .stationReset => 0x02
  | .statusRead => 0x03
  | .tableWrite => 0x10
  | .tableClear => 0x11
  | .tableCheck => 0x12
  | .tableActivate => 0x13
  | .tableRead => 0x14
  | .tipSet => 0x20
  | .tipRemove => 0x21
  | .portSet => 0x22
  | .armTipSet => 0x23
  | .triggerArm => 0x30
  | .triggerDisarm => 0x31
  | .featureOpen => 0x32
  | .featureClose => 0x33
  | .workpieceSet => 0x34
  | .workpieceClear => 0x35
  | .thermalAdvance => 0x38
  | .zoneClaim => 0x40
  | .zoneRelease => 0x41
  | .holdRelease => 0x42
  | .changeBegin => 0x48
  | .changeAbort => 0x49
  | .eventPriority => 0x50
  | .reportLevel => 0x51

/-- The codes in the order of the catalogue. -/
def allRequests : List RequestCode :=
  [.stationMode, .stationReset, .statusRead, .tableWrite, .tableClear, .tableCheck, .tableActivate, .tableRead, .tipSet,
   .tipRemove, .portSet, .armTipSet, .triggerArm, .triggerDisarm, .featureOpen, .featureClose, .workpieceSet,
   .workpieceClear, .thermalAdvance, .zoneClaim, .zoneRelease, .holdRelease, .changeBegin, .changeAbort, .eventPriority,
   .reportLevel]

/-- R173: the code a byte names, if the table lists it. -/
def requestOf (b : Byte) : Option RequestCode := allRequests.find? (fun c => decide (requestByte c = b))

/-- R157: the five codes that CONFIG refuses. -/
def refusedInConfig : RequestCode → Bool
  | .triggerArm => true
  | .changeBegin => true
  | .zoneClaim => true
  | .featureOpen => true
  | .thermalAdvance => true
  | _ => false

/-- A reply: its result and its data words (R155). -/
structure Reply where
  result : Result
  data   : List Word
deriving DecidableEq, Repr

/-- What an owner answers. -/
structure Served where
  state : State
  reply : Reply

/-- Refused, with nothing changed. -/
def refuse (r : Result) (s : State) : Served := ⟨s, ⟨r, []⟩⟩

/-- Taken, with no data. -/
def served (r : Result) (s : State) : Served := ⟨s, ⟨r, []⟩⟩

/-- The refusal of the first check that fails; a check is whether it fails and what it answers. -/
def firstRefusal : List (Bool × Result) → Option Result
  | [] => none
  | (fails, r) :: rest => if fails then some r else firstRefusal rest

/-- An owner's checks, in order, and what it does when they pass. -/
def afterChecks (checks : List (Bool × Result)) (take : State → Served) (s : State) : Served :=
  match firstRefusal checks with
  | some r => refuse r s
  | none => take s

/-- R156: a code whose target is an arm is refused with BAD_PARAM when the target is neither arm. -/
def withArm (v : Byte) (f : Arm → State → Served) (s : State) : Served :=
  match armOf v with
  | none => refuse .badParam s
  | some x => f x s

/-- A table request that names no kind is refused with BAD_PARAM (R119). -/
def withKind (v : Byte) (f : TableKind → State → Served) (s : State) : Served :=
  match kindOf v with
  | none => refuse .badParam s
  | some k => f k s

/-- Record the reply of the frame's request (R155). -/
def withReply (code : Byte) (r : Reply) (s : State) : State :=
  { s with rqu := { s.rqu with exchange := { s.rqu.exchange with code := code, result := some r.result, data := r.data } } }

/-- The third common check (R156, R157), and the request served by its owner. In UNADDRESSED, and during power-on reset, no
request reaches a block (R146, R152). -/
def serve (c : RequestCode) (own : State → Served) (s : State) : State :=
  if s.riu.inReset ∨ s.riu.station = .unaddressed then s
  else if s.riu.station = .config ∧ refusedInConfig c = true then withReply (requestByte c) ⟨.wrongState, []⟩ s
  else withReply (requestByte c) (own s).reply (own s).state

/-! ## Station requests -/

/-- The data of a STATION_MODE reply: the station state after the request (R159). -/
def modeReply (r : Result) (s : State) : Served := ⟨s, ⟨r, [word (stationCode s.riu.station)]⟩⟩

/-- STATION_MODE (R147, R148, R159). -/
def ownStationMode (w : Word) (s : State) : Served :=
  if paramByte w = 2 then
    if s.riu.station = .run then modeReply .done s
    else if (activeBank .slotMap s).isNone || (activeBank .stationRecord s).isNone then modeReply .notReady s
    else modeReply .done (enterRun s)
  else if paramByte w = 1 then
    if s.riu.station = .config then modeReply .done s
    else if armLatched s .a || armLatched s .b || inStep (sessionOf s .a) || inStep (sessionOf s .b) then modeReply .busy s
    else modeReply .done (enterConfig s)
  else modeReply .badParam s

/-- STATION_RESET (R160). -/
def ownStationReset (s : State) : Served := served .done (warmReset s)

/-- STATUS_READ (R161). -/
def ownStatusRead (page selector part : Byte) (s : State) : Served :=
  match statusPage s page selector part with
  | none => refuse .badParam s
  | some ws => ⟨s, ⟨.done, ws⟩⟩

/-! ## Table requests -/

/-- Whether a staging bank is CHECKING. -/
def isChecking : StagingState → Bool
  | .checking _ _ _ => true
  | _ => false

/-- TABLE_WRITE (R121). -/
def ownTableWrite (kind count : Byte) (offset : BitVec 16) (words : ParamWords) : State → Served :=
  withKind kind (fun k s =>
    let n := count.toNat
    afterChecks
      [(!(decide (1 ≤ n) && decide (n ≤ 6) && decide (offset.toNat + n ≤ capacity k)), .badParam),
       (isChecking (s.tbsOf k).state, .busy)]
      (fun s => served .done (s.onTbs k (fun t => { t with
        staging := Memory.writeAll t.staging offset.toNat ((paramList words).take n), state := .unchecked }))) s)

/-- TABLE_CLEAR (R122). -/
def ownTableClear (kind : Byte) : State → Served :=
  withKind kind (fun k s =>
    afterChecks [(isChecking (s.tbsOf k).state, .busy)]
      (fun s => served .done (s.onTbs k (fun t => { t with staging := [], state := .empty }))) s)

/-- TABLE_CHECK (R123, R124). -/
def ownTableCheck (kind : Byte) (expected : Word) : State → Served :=
  withKind kind (fun k s =>
    afterChecks [(decide ((s.tbsOf k).state = .empty), .wrongState), (isChecking (s.tbsOf k).state, .busy)]
      (fun s => served .accepted (s.onTbs k (fun t => { t with state := .checking expected (capacity k) true }))) s)

/-- R130: the blocks whose work an activation would disturb. -/
def activationBusy (k : TableKind) (s : State) : Bool :=
  match k with
  | .armMap x => (s.tcuOf x).bracketOpen || armLatched s x || !sessionIdle s x
  | .zoneTable => (List.range 8).any (fun z => decide (zoneOf s z ≠ .free))
  | _ => false

/-- R130: SLOT MAP and STATION RECORD are activated in CONFIG only. -/
def configOnly : TableKind → Bool
  | .slotMap => true
  | .stationRecord => true
  | _ => false

/-- TABLE_ACTIVATE (R130 to R133). -/
def ownTableActivate (kind : Byte) : State → Served :=
  withKind kind (fun k s =>
    afterChecks
      [(decide ((s.tbsOf k).state ≠ .passed), .notReady),
       (configOnly k && decide (s.riu.station ≠ .config), .wrongState),
       (activationBusy k s, .busy)]
      (fun s =>
        match crossTest k s with
        | some off => ⟨failCross k off s, ⟨.notReady, []⟩⟩
        | none =>
          let s1 := activate k s
          ⟨s1, ⟨.done, [((s1.tbsOf k).generation).setWidth 32]⟩⟩) s)

/-- The six words a TABLE_READ returns; positions beyond the capacity are zero (R135). -/
def readSix (k : TableKind) (b : Bank) (off : Nat) : List Word :=
  (List.range 6).map (fun i => if off + i < capacity k then Memory.read b (off + i) else 0)

/-- TABLE_READ (R135). -/
def ownTableRead (kind bank : Byte) (offset : BitVec 16) : State → Served :=
  withKind kind (fun k s =>
    let o := offset.toNat
    if capacity k ≤ o then refuse .badParam s
    else if bank = 0 then
      match (s.tbsOf k).active with
      | none => refuse .notReady s
      | some b => ⟨s, ⟨.done, readSix k b o⟩⟩
    else if bank = 1 then ⟨s, ⟨.done, readSix k (s.tbsOf k).staging o⟩⟩
    else refuse .badParam s)

/-! ## Tips and ports -/

/-- A tip id lies within 1..32. -/
def tipIdOk (t : Nat) : Bool := decide (1 ≤ t) && decide (t ≤ 32)

/-- R74: whether every field of a TIP_SET lies within its range (R72). -/
def tipFieldsOk (f : ParamWords) : Bool :=
  decide (f.w3.toNat ≤ 10000000) && decide (f.w4.toNat ≤ 1000000)
    && decide (10000 ≤ bitField f.w5.toNat 16 16) && decide (bitField f.w5.toNat 16 16 ≤ 50000)

/-- R74: whether a present tip other than `t` carries a non-zero code. -/
def codeTaken (s : State) (t : Nat) (code : BitVec 16) : Bool := (tipWithCode s t code).isSome

/-- R74: whether `t` is the mounted tip of an arm whose trigger is LATCHED. -/
def mountedLatched (s : State) (t : Nat) : Bool :=
  (decide (mountedTip s .a = some t) && armLatched s .a) || (decide (mountedTip s .b = some t) && armLatched s .b)

/-- The record a TIP_SET writes: the five fields, present, the revision increased (R74). -/
def tipWritten (f : ParamWords) (r : Tip) : Tip :=
  { r with
    present := true, offset := ⟨f.w0.toInt, f.w1.toInt, f.w2.toInt⟩, radius := f.w3.toNat, latency := f.w4.toNat,
    code := BitVec.ofNat 16 (bitField f.w5.toNat 0 16), airTemp := bitField f.w5.toNat 16 16, revision := r.revision + 1 }

/-- TIP_SET (R74). -/
def ownTipSet (tip : Byte) (f : ParamWords) (s : State) : Served :=
  let t := tip.toNat
  afterChecks
    [(!(tipIdOk t && tipFieldsOk f), .badParam),
     (codeTaken s t (BitVec.ofNat 16 (bitField f.w5.toNat 0 16)), .badParam), (mountedLatched s t, .busy)]
    (fun s => let s1 := onTip t (tipWritten f) s; ⟨s1, ⟨.done, [(tipOf s1 t).revision.setWidth 32]⟩⟩) s

/-- R75: whether a tip stands at a port or on an arm. -/
def tipPlaced : TipLocation → Bool
  | .port _ => true
  | .onArm _ => true
  | _ => false

/-- TIP_REMOVE (R75). -/
def ownTipRemove (tip : Byte) (s : State) : Served :=
  let t := tip.toNat
  afterChecks [(!tipIdOk t, .badParam), (tipPlaced (tipOf s t).location, .wrongState)]
    (fun s => served .done (onTip t (fun r => { r with present := false, location := .absent }) s)) s

/-- The three states PORT_SET names (10.2); any other code is none. -/
def portTarget (state tip : Nat) : Option PortState :=
  if state = 0 then some .disabled else if state = 1 then some .empty
  else if state = 2 then some (.holds tip) else none

/-- R77: a present tip within 1..32, for HOLDS. -/
def portTipOk (s : State) : Option PortState → Bool
  | some (.holds t) => tipIdOk t && (tipOf s t).present
  | some _ => true
  | none => false

/-- R77: for HOLDS t, whether t's location is ABSENT, UNKNOWN or the port itself. -/
def portTipFree (s : State) (p : Nat) : Option PortState → Bool
  | some (.holds t) =>
    match (tipOf s t).location with
    | .absent => true
    | .unknown => true
    | .port q => decide (q = p)
    | .onArm _ => false
  | _ => true

/-- R77: a tip the port held before, other than the one now set, becomes ABSENT. -/
def evictTip (p : Nat) (v : PortState) (s : State) : State :=
  match portOf s p with
  | .holds u => if v = .holds u then s else moveTip u .absent s
  | _ => s

/-- R77: for HOLDS t, t's location becomes the port. -/
def placeTip (p : Nat) (v : PortState) (s : State) : State :=
  match v with
  | .holds t => moveTip t (.port p) s
  | _ => s

/-- PORT_SET (R77, R170). -/
def ownPortSet (port : Byte) (state tip : Word) (s : State) : Served :=
  let p := port.toNat
  let target := portTarget (paramByte state) (paramByte tip)
  afterChecks
    [(!(decide (p < 12) && portTipOk s target), .badParam),
     (!(sessionIdle s .a && sessionIdle s .b), .busy), (!portTipFree s p target, .wrongState)]
    (fun s => match target with
      | some v => served .done (clearRack p (setPort p v (placeTip p v (evictTip p v s))))
      | none => refuse .badParam s) s

/-- R78: the arm's former mounted tip becomes ABSENT. -/
def dismount (x : Arm) (s : State) : State :=
  match mountedTip s x with
  | some u => moveTip u .absent s
  | none => s

/-- R78: the tip given becomes mounted. -/
def mount (x : Arm) (t : Nat) (s : State) : State := if t = 0 then s else moveTip t (.onArm x) s

/-- ARM_TIP_SET (R78). -/
def ownArmTipSet (arm : Byte) (tip : Word) : State → Served :=
  withArm arm (fun x s =>
    let t := paramByte tip
    afterChecks
      [(decide (t ≠ 0) && !(tipIdOk t && (tipOf s t).present), .badParam),
       (!(sessionIdle s x && decide (triggerOf s x = .disarmed)), .busy),
       (decide (t ≠ 0) && tipPlaced (tipOf s t).location, .wrongState)]
      (fun s => served .done (emptyHistory x (mount x t (dismount x s)))) s)

/-! ## Triggers and features -/

/-- A latch record with the disarm-after mark set or cleared (R51). -/
def markDisarm (v : Bool) : Trigger → Trigger
  | .latched l => .latched { l with disarmAfter := v }
  | t => t

/-- R49 to R52: TRIGGER_ARM on a trigger that its checks let through. -/
def armedBy : Trigger → Trigger
  | .disarmed => .armed
  | .latched l => .latched { l with disarmAfter := false }
  | t => t

/-- TRIGGER_ARM (R49, R51 to R53). -/
def ownTriggerArm (arm : Byte) : State → Served :=
  withArm arm (fun x s =>
    afterChecks
      [((activeBank (.armMap x) s).isNone || (mountedTip s x).isNone, .notReady),
       (!sessionIdle s x || decide (triggerOf s x = .suppressed), .busy)]
      (fun s => served .done (onTrigger x armedBy s)) s)

/-- TRIGGER_DISARM (R50 to R53). -/
def ownTriggerDisarm (arm : Byte) : State → Served :=
  withArm arm (fun x s =>
    match triggerOf s x with
    | .disarmed => served .done s
    | .armed => served .done (setTrigger x .disarmed s)
    | .rearm _ => served .done (setTrigger x .disarmed s)
    | .latched _ => served .accepted (onTrigger x (markDisarm true) s)
    | .suppressed => refuse .busy s)

/-- FEATURE_OPEN (R68). -/
def ownFeatureOpen (arm : Byte) : State → Served :=
  withArm arm (fun x s =>
    afterChecks [((s.tcuOf x).bracketOpen, .busy), (!sessionIdle s x, .busy)]
      (fun s =>
        let s1 := s.onTcu x (fun u => { u with bracketOpen := true, feature := u.feature + 1 })
        ⟨s1, ⟨.done, [(s1.tcuOf x).feature.setWidth 32]⟩⟩) s)

/-- FEATURE_CLOSE (R69, R46). -/
def ownFeatureClose (arm : Byte) : State → Served :=
  withArm arm (fun x s =>
    if (s.tcuOf x).bracketOpen then
      if armLatched s x then refuse .busy s
      else served .done (takeDeferred x (s.onTcu x (fun u => { u with bracketOpen := false })))
    else served .done s)

/-- Whether either arm's bracket is OPEN (R70). -/
def anyBracketOpen (s : State) : Bool := (s.tcuOf .a).bracketOpen || (s.tcuOf .b).bracketOpen

/-- The record a WORKPIECE_SET writes (R71, 10.2). -/
def workpieceOf (f : ParamWords) : Workpiece :=
  let v := wordString [f.w0, f.w1, f.w2, f.w3]
  ⟨⟨signedBits 40 (bitField v 0 40), signedBits 40 (bitField v 40 40), signedBits 40 (bitField v 80 40)⟩, f.w4.toNat, true⟩

/-- WORKPIECE_SET (R71). -/
def ownWorkpieceSet (f : ParamWords) (s : State) : Served :=
  afterChecks [(decide (30000 < f.w4.toNat), .badParam), (anyBracketOpen s, .busy)]
    (fun s => served .done { s with tcu := { s.tcu with workpiece := workpieceOf f } }) s

/-- WORKPIECE_CLEAR (R71). -/
def ownWorkpieceClear (s : State) : Served :=
  afterChecks [(anyBracketOpen s, .busy)]
    (fun s => served .done { s with tcu := { s.tcu with workpiece := { s.tcu.workpiece with valid := false } } }) s

/-- THERMAL_ADVANCE (R44). DESIGN CHOICE (log 34): taken on the frame whose tick brought the countdown to 0, before the
expiry, it reloads the countdown (R45), so that the expiry, no longer due, takes no advance of its own. -/
def ownThermalAdvance (arm : Byte) : State → Served :=
  withArm arm (fun x s =>
    afterChecks [((s.tcuOf x).bracketOpen, .busy)]
      (fun s =>
        let s1 := reloadCountdown x (advance x s)
        ⟨s1, ⟨.done, [(s1.thuOf x).applied.epoch.setWidth 32]⟩⟩) s)

/-! ## Zones and holds -/

/-- ZONE_CLAIM (R102). -/
def ownZoneClaim (arm zone : Byte) : State → Served :=
  withArm arm (fun x s =>
    let z := zone.toNat
    afterChecks [(decide (8 ≤ z), .badParam)]
      (fun s => served (claimResult (claimOutcome s x z)) (applyClaim x z s)) s)

/-- ZONE_RELEASE by the holder, the waiter or neither (R104, R105). -/
def releaseBy (x : Arm) (z : Nat) (s : State) : Served :=
  if holds s x z then
    let now := decide (insideOf s x z = .outside)
      && (match zoneOf s z with
        | .held _ r _ => !r
        | .free => false)
    served (if now then .done else .accepted) (askRelease x z s)
  else if waitsOn s x z then served .done (withdrawWait x z s)
  else refuse .badParam s

/-- ZONE_RELEASE (R92, R104, R105). -/
def ownZoneRelease (arm zone : Byte) : State → Served :=
  withArm arm (fun x s =>
    let z := zone.toNat
    afterChecks [(decide (8 ≤ z), .badParam), (decide (z = 0) && !sessionIdle s x, .busy)] (releaseBy x z) s)

/-- R115 to R117: the release itself, with the sticky flags cleared (R21). -/
def releaseHold (x : Arm) (recover : Bool) (s : State) : State :=
  (s.onMgd x (fun g => { g with causes := remainingCauses s x recover, creep := creepAfter s x recover })).onCen x
    (fun c => { c with satSeen := false, rangeSeen := false })

/-- HOLD_RELEASE (R115 to R117). -/
def ownHoldRelease (arm : Byte) (recover : Word) : State → Served :=
  withArm arm (fun x s =>
    afterChecks [(decide (1 < paramByte recover), .badParam)]
      (fun s =>
        let s1 := releaseHold x (decide (paramByte recover = 1)) s
        let g := s1.mgdOf x
        ⟨s1, ⟨if g.causes = 0 then .done else .refused, [g.causes.setWidth 32, g.creep.setWidth 32]⟩⟩) s)

/-! ## Change sessions -/

/-- A drop port parameter: 255 for none (10.2). -/
def dropParam (w : Word) : Option Nat := if paramByte w = 255 then none else some (paramByte w)

/-- A pick tip parameter: 0 for none (10.2). -/
def pickParam (w : Word) : Option Nat := if paramByte w = 0 then none else some (paramByte w)

/-- R81, fourth check: the drop port fits the mounted tip. -/
def dropFits (s : State) (x : Arm) (drop : Option Nat) : Bool :=
  match mountedTip s x, drop with
  | some _, some p => decide (portOf s p = .empty)
  | none, none => true
  | _, _ => false

/-- The port that holds a tip. -/
def portHolding (s : State) (t : Nat) : Option Nat :=
  match (tipOf s t).location with
  | .port p => if portOf s p = .holds t then some p else none
  | _ => none

/-- R81, fifth check: the pick tip is present and stands in a port that holds it. -/
def pickFits (s : State) (pick : Option Nat) : Bool :=
  match pick with
  | none => true
  | some t => (tipOf s t).present && (portHolding s t).isSome

/-- R81, sixth check: the other arm's session does not use the drop port or the pick tip. -/
def clashes (s : State) (y : Arm) (drop pick : Option Nat) : Bool :=
  let c := sessionOf s y
  decide (c.state ≠ .idle) &&
    ((drop.isSome && decide (c.dropPort = drop)) || (pick.isSome && decide (c.pickTip = pick)))

/-- The checks of CHANGE_BEGIN in the order of R81. -/
def changeChecks (s : State) (x : Arm) (drop pick : Option Nat) : List (Bool × Result) :=
  [(decide (s.riu.station ≠ .run), .wrongState),
   (!((drop.map (fun p => decide (p < 12))).getD true && (pick.map tipIdOk).getD true), .badParam),
   (!(sessionIdle s x && !(s.tcuOf x).bracketOpen && !armLatched s x), .busy),
   (!dropFits s x drop, .badParam), (!pickFits s pick, .badParam), (clashes s (otherArm x) drop pick, .busy),
   (drop.isNone && pick.isNone, .badParam),
   (decide (claimOutcome s x 0 = .busy), .busy), (decide (claimOutcome s x 0 = .deadlock), .deadlock)]

/-- R82: the session record is filled, the trigger suppressed, the head condition set to consistent, zone 0 claimed; with
the zone the session enters its first step. -/
def beginSession (x : Arm) (drop pick : Option Nat) (s : State) : State :=
  let filled : Session := ⟨.waitZone, mountedTip s x, drop, pick, pick.bind (portHolding s), none, none⟩
  let s1 := s.onPcc x (fun p => { p with session := filled, consistent := true })
  let s2 := applyClaim x 0 (onTrigger x suppressed s1)
  if claimResult (claimOutcome s x 0) = .done then enterStep x s2 else s2

/-- CHANGE_BEGIN (R81, R82). -/
def ownChangeBegin (arm : Byte) (drop pick : Word) : State → Served :=
  withArm arm (fun x s =>
    afterChecks (changeChecks s x (dropParam drop) (pickParam pick))
      (fun s => served .accepted (beginSession x (dropParam drop) (pickParam pick) s)) s)

/-- R91: the abort of a session in DROP, PICK or FAULT. -/
def abortStep (x : Arm) (s : State) : State :=
  let left := (sessionOf s x).state
  let s1 := post (.change x) (.aborted left) (whenDo (decide (left ≠ .fault)) (raise x .abort) s)
  clearSession x (onTrigger x restored (askRelease x 0 s1))

/-- CHANGE_ABORT (R91). -/
def ownChangeAbort (arm : Byte) : State → Served :=
  withArm arm (fun x s =>
    match (sessionOf s x).state with
    | .idle => served .done s
    | .waitZone => served .done (post (.change x) (.aborted .waitZone) (cancelWaiting x s))
    | _ => served .done (abortStep x s))

/-! ## Events -/

/-- EVENT_PRIORITY (R165). -/
def ownEventPriority (source : Byte) (priority : Word) (s : State) : Served :=
  let n := source.toNat
  let v := paramByte priority
  afterChecks [(decide (16 < n), .badParam), (decide (7 < v), .badParam)]
    (fun s =>
      ⟨{ s with evu := { s.evu with
          sources := s.evu.sources.modify n (fun q => { q with priority := v }) } },
       ⟨.done, [word (sourceOf s n).priority, word v]⟩⟩) s

/-- REPORT_LEVEL (R166). -/
def ownReportLevel (level : Word) (s : State) : Served :=
  let v := paramByte level
  afterChecks [(decide (7 < v), .badParam)]
    (fun s => ⟨{ s with evu := { s.evu with reportLevel := v } }, ⟨.done, [word s.evu.reportLevel, word v]⟩⟩) s

/-! ## The request slot -/

/-- The owner of a code, given the slot's target and parameters (10.2). -/
def ownerOf (c : RequestCode) (r : RequestSlot) : State → Served :=
  match c with
  | .stationMode => ownStationMode r.params.w0
  | .stationReset => ownStationReset
  | .statusRead => ownStatusRead r.target r.second r.third
  | .tableWrite => ownTableWrite r.target r.second (slotOffset16 r) r.params
  | .tableClear => ownTableClear r.target
  | .tableCheck => ownTableCheck r.target r.params.w0
  | .tableActivate => ownTableActivate r.target
  | .tableRead => ownTableRead r.target r.second (slotOffset16 r)
  | .tipSet => ownTipSet r.target r.params
  | .tipRemove => ownTipRemove r.target
  | .portSet => ownPortSet r.target r.params.w0 r.params.w1
  | .armTipSet => ownArmTipSet r.target r.params.w0
  | .triggerArm => ownTriggerArm r.target
  | .triggerDisarm => ownTriggerDisarm r.target
  | .featureOpen => ownFeatureOpen r.target
  | .featureClose => ownFeatureClose r.target
  | .workpieceSet => ownWorkpieceSet r.params
  | .workpieceClear => ownWorkpieceClear
  | .thermalAdvance => ownThermalAdvance r.target
  | .zoneClaim => ownZoneClaim r.target r.second
  | .zoneRelease => ownZoneRelease r.target r.second
  | .holdRelease => ownHoldRelease r.target r.params.w0
  | .changeBegin => ownChangeBegin r.target r.params.w0 r.params.w1
  | .changeAbort => ownChangeAbort r.target
  | .eventPriority => ownEventPriority r.target r.params.w0
  | .reportLevel => ownReportLevel r.params.w0

/-- R15: the frame in flight keeps, for each arm whose mounted tip is `t`, the offset that the tip has now. -/
def keepOffset (t : Nat) (s : State) : State :=
  let kept (x : Arm) : Option FormerOffset := if mountedTip s x = some t then some ⟨t, (tipOf s t).offset⟩ else none
  { s with riu := { s.riu with inFlight := s.riu.inFlight.map (fun n => { n with former := ⟨kept .a, kept .b⟩ }) } }

/-- A request that has passed the first two common checks is served; before a TIP_SET the offset it may change is kept for
the frame's own return pass (R15; log 23). -/
def serveSlot (c : RequestCode) (r : RequestSlot) (s : State) : State :=
  serve c (ownerOf c r) (if c = .tipSet then keepOffset r.target.toNat s else s)

/-- R154, R156: the RQU takes a request: the common checks in order, then the owner. Code NONE asks nothing. -/
def takeRequest (r : RequestSlot) (s : State) : State :=
  if r.code = 0 then s
  else if s.riu.address ≠ some r.address then withReply r.code ⟨.wrongStation, []⟩ s
  else
    match requestOf r.code with
    | none => withReply r.code ⟨.unknownCode, []⟩ s
    | some c => serveSlot c r s

/-- The requests for which a rule gives both orders against the work of the frame's own return pass (log 6): for these
the world may have the return pass's work done first. -/
def mayFollowPass (r : RequestSlot) : Bool :=
  match requestOf r.code with
  | some .statusRead => true
  | some .tableActivate => decide (r.target = 2) || decide (r.target = 3) || decide (r.target = 5)
  | some .tipSet => true
  | some .portSet => true
  | some .armTipSet => true
  | some .featureClose => true
  | some .workpieceSet => true
  | some .workpieceClear => true
  | some .thermalAdvance => true
  | some .zoneClaim => true
  | some .holdRelease => true
  | some .changeBegin => true
  | some .changeAbort => true
  | _ => false

/-- Take the request that was handed on and waits (log 6). -/
def takeAwaiting (s : State) : State :=
  match s.rqu.awaiting with
  | some r => takeRequest r { s with rqu := { s.rqu with awaiting := none } }
  | none => s

end Sys2Proof.Machine
end

