-- ==== Sys2Proof/Machine/Pass.lean ====
section
/-! DEFINITION. The two passes of a cycle frame (R139, R140), the settlement of what stays due between frames (log 2), and
the answer to a link check (R144, R145). -/
namespace Sys2Proof.Machine

/-! ## Settlement (log 2) -/

/-- A step for arm A, then for arm B. DESIGN CHOICE (log 2): where both arms post at one source, arm B's detail is the latest. -/
def bothArms (f : Arm → State → State) (s : State) : State := f .b (f .a s)

/-- The deferred releases of zones 0 to 7 (R106). DESIGN CHOICE (log 2): of releases still due together the zones are taken in
number order, so that the highest zone's ZONE posting of an arm comes last. -/
def deferredReleases (s : State) : State := (List.range 8).foldl (fun s z => deferredRelease z s) s

/-- The completions of the table checks (R129). DESIGN CHOICE (log 2): of checks still due together the kinds are taken in the
order of their codes, so that the TABLE posting of the highest code comes last. -/
def checkCompletions (s : State) : State := allKinds.foldl (fun s k => checkComplete k s) s

/-- Every step that the latest return pass or the latest valid cycle frame left due, but for the two expiries that may
still come after the frame's own return pass (R45, R84; `settleFrame` takes those too). DESIGN CHOICE (log 2): the order of
what stays due. DESIGN CHOICE (log 2, log 29): of the two postings of R95 at CHANGE_y on a pick completion that stays due, the
"head" one is taken first and (IDENTITY, "cancelled") comes last. -/
def settlePass (s : State) : State :=
  bothArms rearmExpiry (checkCompletions (drainPoints (deferredReleases (bothArms (fun x => pickComplete x false)
    (bothArms dropComplete (bothArms lateResolution (bothArms resolveTouch s)))))))

/-- Every step that is due before the next frame arrives at P1. DESIGN CHOICE (log 2): a waiting request is taken first, the
expiries last. -/
def settleFrame (s : State) : State := bothArms autoAdvance (bothArms stepTimeout (settlePass (takeAwaiting s)))

/-- Whether the clock passes the supervision deadline within a time (R149). -/
def passesDeadline (elapsed : Nat) (s : State) : Bool :=
  match s.riu.deadline with
  | some d => decide (timeUntil s.riu.clock d < elapsed)
  | none => false

/-- Every step that is due before the clock runs on. Where it passes the supervision deadline these are all that were due
before that deadline, so that a step timer at 0 has timed out before ring loss can begin (R84, R90). -/
def settleBefore (elapsed : Nat) (s : State) : State := if passesDeadline elapsed s then settleFrame s else settlePass s

/-- Time passes between commands (log 3): a request that waits has been taken before anything but its own frame's return pass
(R154), and what is due is taken before the clock moves. -/
def passTime (elapsed : Nat) (s : State) : State :=
  let s1 := takeAwaiting s
  runClock elapsed (if elapsed = 0 then s1 else settleBefore elapsed s1)

/-- The marks by which a return pass leaves steps due are taken down. -/
def clearDue (s : State) : State :=
  bothArms (fun x s => (s.onTcu x (fun u => { u with touchDue := .none })).onPcc x (fun p => { p with changeDue := false }))
    { s with tcu := { s.tcu with drainDue := none } }

/-- A step that is a row of its own, taken within a pass. -/
def takeRow (p : Part) (s : State) : State :=
  match p with
  | .drain => drainPoints s
  | .resolve x => resolveTouch x s
  | .late x => lateResolution x s
  | .drop x => dropComplete x s
  | .pick x headLast => pickComplete x headLast s
  | .release z => deferredRelease z s
  | .rearm x => rearmExpiry x s
  | .autoAdvance x => autoAdvance x s
  | .stepTimeout x => stepTimeout x s
  | .check k => checkComplete k s
  | _ => s

/-! ## The return pass -/

/-- The parts of a return pass itself, in the default order (log 5). -/
def returnParts : List Part :=
  [.thermal, .correct .a, .numeric .a, .limits .a, .monitor .a, .correct .b, .numeric .b, .limits .b, .monitor .b,
   .status .a, .status .b, .rack, .checks, .request, .select]

/-- What a return pass works from: the payload as it arrived, the window offset, the sync time. -/
structure PassInput where
  input  : Memory 8
  window : Nat
  sync   : BitVec 64

/-- What a return pass works on: the parts still to be taken, the state, the results of each arm's correction (R26), the
steps of the THU and of the rack that are left, and the ports spared on this pass (R95). -/
structure PassWork where
  todo    : List Part
  state   : State
  chains  : PerArm (Option Chain)
  thermal : List ThermalStep
  rack    : List RackStep
  spared  : List Nat

/-- R98, R133: a ZONE TABLE activation that waits is taken before the pass or after the MGD's part of it, for the new bank is
used from the next return pass. -/
def mayTakeAwaiting (todo : List Part) (s : State) : Bool :=
  match s.rqu.awaiting with
  | some r =>
    !(decide (requestOf r.code = some .tableActivate) && decide (r.target = 5)
      && (todo.contains (.monitor .a) || todo.contains (.monitor .b)))
  | none => true

/-- R168, R170: the selection sees what the frame's own request posts, an activation or an abort, and what it clears, a
PORT_SET. -/
def maySelect (s : State) : Bool :=
  match s.rqu.awaiting with
  | some r =>
    decide (requestOf r.code ≠ some .tableActivate) && decide (requestOf r.code ≠ some .changeAbort)
      && decide (requestOf r.code ≠ some .portSet)
  | none => true

/-- Whether the THU has taken some of its steps of the pass and not all. -/
def thermalMidway (w : PassWork) : Bool :=
  match w.thermal with
  | [] => false
  | .restart :: _ => false
  | _ => true

/-- Whether the rack's part has taken some of its steps of the pass and not all. -/
def rackMidway (w : PassWork) : Bool :=
  match w.rack with
  | [] => false
  | .reading :: _ => false
  | _ => true

/-- Whether an arm has been corrected and its onsets or soft limits are still to come. -/
def armMidway (w : PassWork) (x : Arm) : Bool :=
  !w.todo.contains (.correct x) && (w.todo.contains (.numeric x) || w.todo.contains (.limits x))

/-- Whether a part of the pass may be taken now. A selection may fall between two steps of one block's part (R168); a request,
and a step that reads what the block is working on, stand before or after the part as a whole (log 5). A check completes after
the pass's selection, for which its posting is one between frames (R168), and before or after a STATUS_READ that waits (R161). -/
def passAllows (w : PassWork) (p : Part) : Bool :=
  match p with
  | .numeric x => !w.todo.contains (.correct x)
  | .limits x => !w.todo.contains (.correct x)
  | .monitor x => !w.todo.contains (.limits x)
  | .request =>
    mayTakeAwaiting w.todo w.state && !thermalMidway w && !rackMidway w && !armMidway w .a && !armMidway w .b
  | .select => maySelect w.state
  | .autoAdvance _ => !thermalMidway w
  | .drop _ => !rackMidway w
  | .pick _ _ => !rackMidway w
  | .check _ => !w.todo.contains .select
  | _ => true

/-- The correction of an arm, its position block written (R23). -/
def passCorrect (c : PassInput) (x : Arm) (w : PassWork) : PassWork :=
  let r := correctArm x c.input w.state
  { w with
    state := writeReturn (c.window + windowPosition x) r.block r.state, chains := w.chains.modify x (fun _ => r.chain) }

/-- What an arm's correction leads to on the pass, when there was a valid sample. -/
def passChain (x : Arm) (f : Chain → State → State) (w : PassWork) : PassWork :=
  match w.chains.get x with
  | some r => { w with state := f r w.state }
  | none => w

/-- The soft limits of the bank the arm is corrected with (R22). -/
def passLimits (x : Arm) (r : Chain) (s : State) : State :=
  match armBank x s with
  | some b => softLimits x b r.g s
  | none => s

/-- The selection, its event slot written (R167). -/
def passSelect (c : PassInput) (w : PassWork) : PassWork :=
  let e := selectEvent w.state
  { w with state := writeReturn (c.window + windowEvent) e.1 e.2 }

/-- Take one of the pass's own parts. -/
def takeOwn (c : PassInput) (p : Part) (w : PassWork) : PassWork :=
  match p with
  | .thermal => { w with state := thermalPass c.sync c.input w.thermal w.state, thermal := [] }
  | .correct x => passCorrect c x w
  | .numeric x => passChain x (fun r => numericOnset x r.saturated r.beyond) w
  | .limits x => passChain x (passLimits x) w
  | .monitor x => passChain x (fun r => monitorArm x r.t) w
  | .status x => { w with state := readStatus x c.input w.state }
  | .rack => { w with state := rackPass c.input w.spared w.rack w.state, rack := [] }
  | .checks => { w with state := checksPass w.state }
  | .request => { w with state := takeAwaiting w.state }
  | .select => passSelect c w
  | _ => w

/-- Take a step that is a row of its own; the ports of a session that it cancels are spared on this pass (R95). -/
def passRow (p : Part) (w : PassWork) : PassWork :=
  let s := takeRow p w.state
  { w with state := s, spared := cancelledPorts w.state s .a ++ cancelledPorts w.state s .b ++ w.spared }

/-- Take a part the world has chosen: one of the pass's own once and when it may be, the next step of the THU's or of the
rack's part, or a row step. -/
def takeChosen (c : PassInput) (w : PassWork) (p : Part) : PassWork :=
  if p = .thermalStep then
    { w with state := thermalPass c.sync c.input (w.thermal.take 1) w.state, thermal := w.thermal.drop 1 }
  else if p = .rackStep then { w with state := rackPass c.input w.spared (w.rack.take 1) w.state, rack := w.rack.drop 1 }
  else if passAllows w p then
    if returnParts.contains p then
      if w.todo.contains p then takeOwn c p { w with todo := w.todo.erase p } else w
    else passRow p w
  else w

/-- The parts of a return pass: the chosen ones first, then the others in the default order. -/
def runParts (c : PassInput) (order : List Part) (w : PassWork) : PassWork :=
  let w1 := order.foldl (takeChosen c) w
  w1.todo.foldl (fun w p => takeOwn c p w) w1

/-- The work of a return pass before any part of it is taken. -/
def passWork (choices : PassChoices) (s : State) : PassWork :=
  { todo := returnParts, state := s, chains := ⟨none, none⟩, thermal := thermalSteps choices.channels choices.aggregates,
    rack := rackSteps choices.ports, spared := [] }

/-- R5, R133 (log 8): the blocks take an arm's active bank from this pass on. -/
def refreshMap (x : Arm) (s : State) : State :=
  let t := s.tbsOf (.armMap x)
  s.onCen x (fun c => { c with inForce := t.active.map (fun b => ⟨b, t.generation⟩) })

/-- R133 (log 26): the active STATION RECORD is in force from this pass on. -/
def refreshRecord (s : State) : State := { s with riu := { s.riu with record := activeBank .stationRecord s } }

/-- The frame is at the part, to leave at P1 with what the pass writes. -/
def takeFrame (f : RingFrame) (s : State) : State := { s with riu := { s.riu with sent1 := some ⟨f, true⟩ } }

/-- R67, R172: while a STATION RECORD is active both point slots are written empty, and the drain of the pass is due. -/
def openDrain (window : Nat) (s : State) : State :=
  if (stationRecord s).isSome then
    let s1 := writeReturn (window + windowPoint 0) emptyPointBytes (writeReturn (window + windowPoint 1) emptyPointBytes s)
    { s1 with tcu := { s1.tcu with drainDue := some window } }
  else s

/-- Result codes (10.2). -/
def resultCode : Result → Nat
  | .done => 1
  | .accepted => 2
  | .busy => 3
  | .wrongState => 4
  | .badParam => 5
  | .notReady => 6
  | .deadlock => 7
  | .refused => 8
  | .wrongStation => 9
  | .unknownCode => 10

/-- The bytes of the reply slot (R155, 10.2). -/
def replyBytes (s : State) : List Byte :=
  let e := s.rqu.exchange
  [s.riu.address.getD 0, e.code] ++ leBytes 2 e.tag.toNat ++ [BitVec.ofNat 8 ((e.result.map resultCode).getD 0), 0, 0, 0]
    ++ wordsBytes ((e.data ++ List.replicate 16 0).take 16)

/-- R136: a frame for P1 whose link is down is discarded; what the pass did stands. -/
def dropLine1 (s : State) : State := if s.riu.p1Up then s else { s with riu := { s.riu with sent1 := none } }

/-- R140, R155: the reply is written, the frame in flight has returned, and the frame leaves at P1. -/
def finishReturn (window : Nat) (s : State) : State :=
  let s1 := writeReturn (window + windowReply) (replyBytes s) s
  dropLine1 { s1 with riu := { s1.riu with inFlight := none } }

/-- The return pass of the frame in flight (R140); `input` is what the field slots read. -/
def returnPass (n : InFlight) (f : RingFrame) (input : Memory 8) (choices : PassChoices) (s : State) : State :=
  let s1 := openDrain n.window (takeFrame f (refreshRecord (bothArms refreshMap (clearDue s))))
  finishReturn n.window (runParts ⟨input, n.window, n.sync⟩ choices.order (passWork choices s1)).state

/-- R138: the frame in flight, when the frame that arrived at P2 carries its number. During ring loss no frame takes a return
pass (R150, R169; log 36). -/
def returnOf (f : RingFrame) (s : State) : Option InFlight :=
  match s.riu.inFlight with
  | some n =>
    if n.number = frameNumber f ∧ s.riu.station ≠ .unaddressed ∧ s.riu.ringLoss = false then some n else none
  | none => none

/-! ## The outbound pass -/

/-- R142: the clock is set to the sync time, and the reading and the frame number are kept for the STATION page. -/
def realign (f : RingFrame) (s : State) : State :=
  { s with riu := { s.riu with clock := syncTime f, clockAtAlign := syncTime f, frameAtAlign := frameNumber f } }

/-- R139: the written mark of every slot that the SLOT MAP bank places is cleared. -/
def clearMarks (slots : Option Bank) (f : RingFrame) : RingFrame :=
  ((slots.map slotEntries).getD []).foldl (fun f e => writePayload e.2 [0] f) f

/-- R138: the frame in flight. -/
def recordInFlight (f : RingFrame) (s : State) : State :=
  { s with riu := { s.riu with inFlight := some ⟨frameNumber f, syncTime f, windowOffset s, ⟨none, none⟩⟩ } }

/-- R154: the request slot is handed to the RQU; a slot of code NONE asks nothing. -/
def handRequest (r : RequestSlot) (s : State) : State :=
  { s with rqu := ⟨⟨r.tag, r.code, none, []⟩, if r.code = 0 then none else some r⟩ }

/-- The countdowns that a valid cycle frame moves (R45, R52, R84), and the check requests whose frame is past (R124). -/
def tickFrame (s : State) : State :=
  let s1 := bothArms tickStep (bothArms tickRearm { s with tbs := s.tbs.all unfresh })
  if s.riu.station = .run then bothArms tickCountdown s1 else s1

/-- What an outbound pass works on: the parts to be taken, the state, the guard word once it is written. -/
structure OutWork where
  todo  : List Part
  state : State
  guard : Nat

/-- Take a part of the outbound pass. -/
def takeOutbound (w : OutWork) (p : Part) : OutWork :=
  if p = .request ∨ p = .guardWord then
    if w.todo.contains p then
      let todo := w.todo.erase p
      if p = .request then { w with todo := todo, state := takeAwaiting w.state }
      else { w with todo := todo, guard := guardWord w.state }
    else w
  else { w with state := takeRow p w.state }

/-- The request and the guard word of an outbound pass (R139), the chosen parts first. -/
def runOutbound (out : OutboundChoices) (r : RequestSlot) (s : State) : OutWork :=
  let todo : List Part := if out.late && mayFollowPass r then [.guardWord] else [.request, .guardWord]
  let w := out.order.foldl takeOutbound ⟨todo, s, 0⟩
  w.todo.foldl takeOutbound w

/-- R139, R143: the guard word, and after it the written marks, are written into the frame. -/
def stampFrame (window guard : Nat) (slots : Option Bank) (f : RingFrame) : RingFrame :=
  clearMarks slots (writePayload (window + windowGuard) (leBytes 4 guard) f)

/-- R139, R141: the frame goes on to P2, or is turned around and returns at once, every field slot read as not written. -/
def forwardCycle (f : RingFrame) (back : PassChoices) (s : State) : State :=
  if s.riu.p2Up then sendP2 true f s
  else
    match s.riu.inFlight with
    | some n => returnPass n f [] back (countTurned s)
    | none => sendP1 true f (countTurned s)

/-- The request slot of a frame (R154), read before or after the written marks are cleared (log 25). -/
def arrivedRequest (marksFirst : Bool) (f : RingFrame) (s : State) : RequestSlot :=
  readRequest (if marksFirst then (clearMarks (activeBank .slotMap s) f).payload else f.payload) (windowOffset s)

/-- What a valid cycle frame does before its request is taken (R138, R149, R151, R154). -/
def beginOutbound (f : RingFrame) (r : RequestSlot) (s : State) : State :=
  tickFrame (handRequest r (recordInFlight f (clearDue (validArrival s))))

/-- The outbound pass in CONFIG and RUN (R138, R139, R149, R151, R154). The marks are cleared by the SLOT MAP active when
they are cleared, before or after the frame's request is taken (log 25). -/
def stationOutbound (f : RingFrame) (out : OutboundChoices) (back : PassChoices) (s : State) : State :=
  let r := arrivedRequest out.marksFirst f s
  let w := runOutbound out r (beginOutbound f r s)
  let slots := if out.marksFirst then activeBank .slotMap s else activeBank .slotMap w.state
  forwardCycle (stampFrame (windowOffset s) w.guard slots f) back w.state

/-- A frame arrives at P1 or, for a cycle frame's period, would have: what was due is taken, and the clock runs. -/
def arriveP1 (elapsed : Nat) (s : State) : State := clearLines (runClock elapsed (settleFrame s))

/-- A frame arrives that begins no new period. -/
def arrive (elapsed : Nat) (s : State) : State := clearLines (runClock elapsed (settleBefore elapsed (takeAwaiting s)))

/-- A cycle frame arrives at P2. A request that waits goes on waiting where this is its own frame's return and no deadline
comes before it; otherwise it has been taken (R154; log 6). -/
def arriveBack (elapsed : Nat) (f : RingFrame) (s : State) : State :=
  if (returnOf f s).isSome && !passesDeadline elapsed s then clearLines (runClock elapsed (settlePass s))
  else arrive elapsed s

/-! ## Frames not acted on -/

/-- A frame goes on unaltered, as P2's link stands; `turns` says whether it is turned around while that link is down. -/
def forwardP1 (ok turns : Bool) (f : RingFrame) (s : State) : State :=
  if s.riu.p2Up then sendP2 ok f s else if turns then sendP1 ok f s else s

/-- R141: a cycle frame at P1 counts as turned around while P2's link is down. -/
def countIfTurned (s : State) : State := if s.riu.p2Up then s else countTurned s

/-- The outbound pass of a valid cycle frame: in UNADDRESSED it realigns the clock alone (R139, R146). -/
def outboundPass (f : RingFrame) (out : OutboundChoices) (back : PassChoices) (s : State) : State :=
  let s1 := realign f s
  if s1.riu.station = .unaddressed then forwardP1 true true f (countIfTurned s1) else stationOutbound f out back s1

/-- R137: a frame with a failed check at P1. -/
def badAtP1 (elapsed : Nat) (f : RingFrame) (bFirst : Bool) (s : State) : State :=
  forwardP1 false (Config.badFrameTurnsAround f) f (missingArrival bFirst (arriveP1 elapsed s))

/-- R137, R141 (log 15): a cycle frame of wrong length at P1. -/
def wrongAtP1 (elapsed : Nat) (f : RingFrame) (bFirst : Bool) (s : State) : State :=
  forwardP1 true true f (countIfTurned (missingArrival bFirst (arriveP1 elapsed s)))

/-- R136: a frame at P2 that is not acted on leaves at P1. -/
def passP2 (ok : Bool) (elapsed : Nat) (f : RingFrame) (s : State) : State := sendP1 ok f (arrive elapsed s)

/-! ## Link checks -/

/-- The identity record (R145, 10.1). -/
def identityBytes (s : State) : List Byte :=
  leBytes 2 Config.vendorCode ++ leBytes 2 Config.partCode
    ++ [BitVec.ofNat 8 Config.siliconRevision, s.riu.address.getD 0, BitVec.ofNat 8 (stationCode s.riu.station)]
    ++ [2, 24, 12, 8, 32] ++ [0, 0, 0, 0]

/-- R144, R172: the record is written at the place the count names, and the count grows. -/
def appendIdentity (f : RingFrame) (s : State) : RingFrame :=
  let count := headerByte f 2
  withHeaderByte 2 (count + 1) (writePayload (16 * count.toNat) (identityBytes s) f)

/-- R144: the address a link check gives the part: the counter, while the part has none and the list has room. -/
def addressGiven (f : RingFrame) (s : State) : Option Byte :=
  let c := headerByte f 1
  if s.riu.station = .unaddressed ∧ 1 ≤ c.toNat ∧ c.toNat ≤ 254 then some c else none

/-- R144: the answer to a link check: the frame as it leaves, and the state. -/
def answerLinkCheck (f : RingFrame) (s : State) : RingFrame × State :=
  if Config.identityCapacity ≤ (headerByte f 2).toNat then (withHeaderByte 3 1 f, s)
  else
    match addressGiven f s with
    | some c =>
      let s1 := takeAddress c s
      (appendIdentity (withHeaderByte 1 (c + 1) f) s1, s1)
    | none => (appendIdentity f s, s)

/-- R144, R172: a link-check frame at P1: answered when its payload is 1,472 bytes long, then forwarded or turned around. -/
def linkCheckAtP1 (elapsed : Nat) (f : RingFrame) (s : State) : State :=
  let s1 := arrive elapsed s
  if f.length = Config.payloadLength then
    let a := answerLinkCheck f s1
    forwardP1 true true a.1 a.2
  else forwardP1 true true f s1

end Sys2Proof.Machine
end

