-- ==== Sys2Proof/Machine/FrameCommands.lean ====
section
/-! DEFINITION. The commands that are a frame's arrival, and the deadline of a frame that does not arrive (07). A command
whose frame is not of its row, or that cannot arrive, leaves the state as it is (log 1, log 18). -/
namespace Sys2Proof.Machine

/-- CYCLE_FRAME_OUTBOUND (R139): a valid cycle frame arrives at P1. -/
def execCycleFrameOutbound (elapsed : Nat) (f : RingFrame) (out : OutboundChoices) (back : PassChoices) (s : State) :
    Host.Outcome State Fault Refusal :=
  .next (if portOpen .p1 s && isCycleFrame f then outboundPass f out back (arriveP1 elapsed s) else s)

/-- CYCLE_FRAME_RETURN (R138, R140): a cycle frame with a good check arrives at P2. During ring loss it takes no return pass,
also where it is the return of the frame in flight (R150, R169; DEDUCED, log 36). -/
def execCycleFrameReturn (elapsed : Nat) (f : RingFrame) (choices : PassChoices) (s : State) :
    Host.Outcome State Fault Refusal :=
  .next
    (if portOpen .p2 s && isCycleFrame f then
      let s1 := arriveBack elapsed f s
      match returnOf f s1 with
      | some n => returnPass n f f.payload choices s1
      | none => sendP1 true f s1
    else s)

/-- MISSED_FRAME_DEADLINE (R149, R150): the station clock reaches the supervision deadline. -/
def execMissedFrameDeadline (bFirst : Bool) (s : State) : Host.Outcome State Fault Refusal :=
  .next (if supervised s then reachDeadline bFirst (settleFrame s) else s)

/-- BAD_CHECK_FRAME (R137, R149): a frame with a failed frame check arrives at either port. -/
def execBadCheckFrame (elapsed : Nat) (port : RingPort) (f : RingFrame) (bFirst : Bool) (s : State) :
    Host.Outcome State Fault Refusal :=
  .next
    (if portOpen port s then
      match port with
      | .p1 => badAtP1 elapsed f bFirst s
      | .p2 => passP2 false elapsed f s
    else s)

/-- WRONG_LENGTH_FRAME (R137, R149): a cycle frame with a good check and a payload of another length. -/
def execWrongLengthFrame (elapsed : Nat) (port : RingPort) (f : RingFrame) (bFirst : Bool) (s : State) :
    Host.Outcome State Fault Refusal :=
  .next
    (if portOpen port s && isWrongLength f then
      match port with
      | .p1 => wrongAtP1 elapsed f bFirst s
      | .p2 => passP2 true elapsed f s
    else s)

/-- LINK_CHECK_FRAME (R144, R145, R172): a valid link-check frame; at P2 it is on its return pass and goes on unaltered. -/
def execLinkCheckFrame (elapsed : Nat) (port : RingPort) (f : RingFrame) (s : State) : Host.Outcome State Fault Refusal :=
  .next
    (if portOpen port s && decide (frameKind f = .linkCheck) then
      match port with
      | .p1 => linkCheckAtP1 elapsed f s
      | .p2 => passP2 true elapsed f s
    else s)

/-- OTHER_FRAME (R136, R141): forwarded unaltered; at P1 it is discarded while P2's link is down. -/
def execOtherFrame (elapsed : Nat) (port : RingPort) (f : RingFrame) (s : State) : Host.Outcome State Fault Refusal :=
  .next
    (if portOpen port s && decide (frameKind f = .other) then
      match port with
      | .p1 => forwardP1 true false f (arrive elapsed s)
      | .p2 => passP2 true elapsed f s
    else s)

end Sys2Proof.Machine
end

