-- ==== Sys2Proof/Machine/GuardCommands.lean ====
section
/-! DEFINITION. The requests on zones and holds (05), each as its owner serves it (log 7). -/
namespace Sys2Proof.Machine

/-- ZONE_CLAIM (R102). -/
def execZoneClaim (arm zone : Byte) (s : State) : Host.Outcome State Fault Refusal :=
  .next (serve .zoneClaim (ownZoneClaim arm zone) s)

/-- ZONE_RELEASE (R92, R104, R105). -/
def execZoneRelease (arm zone : Byte) (s : State) : Host.Outcome State Fault Refusal :=
  .next (serve .zoneRelease (ownZoneRelease arm zone) s)

/-- HOLD_RELEASE (R115, R116, R117). -/
def execHoldRelease (arm : Byte) (recover : Word) (s : State) : Host.Outcome State Fault Refusal :=
  .next (serve .holdRelease (ownHoldRelease arm recover) s)

end Sys2Proof.Machine
end

