-- ==== Sys2Proof/Machine/PassCommands.lean ====
section
/-! DEFINITION. The steps that a pass or a countdown leaves due, each a command of its own (log 2). A step that is not due
leaves the state as it is (log 1). -/
namespace Sys2Proof.Machine

/-- POINT_DRAIN (R67). -/
def execPointDrain (s : State) : Host.Outcome State Fault Refusal := .next (drainPoints s)

/-- TOUCH_RESOLVE (R55, R56, R59 to R66). -/
def execTouchResolve (x : Arm) (s : State) : Host.Outcome State Fault Refusal := .next (resolveTouch x s)

/-- LATE_RESOLUTION (R57). -/
def execLateResolution (x : Arm) (s : State) : Host.Outcome State Fault Refusal := .next (lateResolution x s)

/-- REARM_EXPIRY (R52). -/
def execRearmExpiry (x : Arm) (s : State) : Host.Outcome State Fault Refusal := .next (rearmExpiry x s)

/-- AUTO_ADVANCE_EXPIRY (R45, R43). -/
def execAutoAdvanceExpiry (x : Arm) (s : State) : Host.Outcome State Fault Refusal := .next (autoAdvance x s)

/-- STEP_TIMEOUT (R84, R89). -/
def execStepTimeout (x : Arm) (s : State) : Host.Outcome State Fault Refusal := .next (stepTimeout x s)

/-- DROP_COMPLETE (R85, R88). -/
def execDropComplete (x : Arm) (s : State) : Host.Outcome State Fault Refusal := .next (dropComplete x s)

/-- PICK_COMPLETE (R86, R87, R88, R95). -/
def execPickComplete (x : Arm) (headLast : Bool) (s : State) : Host.Outcome State Fault Refusal :=
  .next (pickComplete x headLast s)

/-- DEFERRED_RELEASE (R106, R103). -/
def execDeferredRelease (zone : Nat) (s : State) : Host.Outcome State Fault Refusal := .next (deferredRelease zone s)

/-- TABLE_CHECK_COMPLETE (R125, R126, R129). -/
def execTableCheckComplete (kind : TableKind) (s : State) : Host.Outcome State Fault Refusal := .next (checkComplete kind s)

end Sys2Proof.Machine
end

