-- ==== Sys2Proof/Machine/PinCommands.lean ====
section
/-! DEFINITION. The commands at the pins and the links: trigger edges (R48), the power-on reset (R152), the two link states
(R136, R141). -/
namespace Sys2Proof.Machine

/-- TRIGGER_EDGE (R48 to R53): an edge on TRG_A or TRG_B. DESIGN CHOICE (log 38): it is taken before or after a return pass as a
whole, never between its parts. -/
def execTriggerEdge (elapsed : Nat) (x : Arm) (rising : Bool) (s : State) : Host.Outcome State Fault Refusal :=
  .next
    (if s.riu.inReset then s
    else
      let s1 := passTime elapsed s
      if edgeActs s1 x rising then takeEdge x s1 else s1)

/-- POWER_ON_RESET (R152): the supply rises or RESET_N falls. -/
def execPowerOnReset (cut1 cut2 : Bool) (s : State) : Host.Outcome State Fault Refusal := .next (powerOn cut1 cut2 s)

/-- POWER_ON_RESET_END (R152): RESET_N rises or the start-up ends; frames are forwarded again. -/
def execPowerOnResetEnd (s : State) : Host.Outcome State Fault Refusal :=
  .next { s with riu := { s.riu with inReset := false } }

/-- The clock does not run on while the power-on reset holds it at 0 (R152). -/
def passTimeOutOfReset (elapsed : Nat) (s : State) : State := if s.riu.inReset then s else passTime elapsed s

/-- P2_LINK_CHANGE (R141). -/
def execP2LinkChange (elapsed : Nat) (up : Bool) (s : State) : Host.Outcome State Fault Refusal :=
  let s1 := passTimeOutOfReset elapsed s
  .next { s1 with riu := { s1.riu with p2Up := up } }

/-- P1_LINK_CHANGE (R136). -/
def execP1LinkChange (elapsed : Nat) (up : Bool) (s : State) : Host.Outcome State Fault Refusal :=
  let s1 := passTimeOutOfReset elapsed s
  .next { s1 with riu := { s1.riu with p1Up := up } }

end Sys2Proof.Machine
end

