-- ==== Sys2Proof/Machine/ProbeCommands.lean ====
section
/-! DEFINITION. The requests on tips, rack ports and change sessions (04), each as its owner serves it (log 7). -/
namespace Sys2Proof.Machine

/-- TIP_SET (R74). -/
def execTipSet (tip : Byte) (fields : ParamWords) (s : State) : Host.Outcome State Fault Refusal :=
  .next (serve .tipSet (ownTipSet tip fields) s)

/-- TIP_REMOVE (R75). -/
def execTipRemove (tip : Byte) (s : State) : Host.Outcome State Fault Refusal :=
  .next (serve .tipRemove (ownTipRemove tip) s)

/-- PORT_SET (R77, R170). -/
def execPortSet (port : Byte) (state tip : Word) (s : State) : Host.Outcome State Fault Refusal :=
  .next (serve .portSet (ownPortSet port state tip) s)

/-- ARM_TIP_SET (R78). -/
def execArmTipSet (arm : Byte) (tip : Word) (s : State) : Host.Outcome State Fault Refusal :=
  .next (serve .armTipSet (ownArmTipSet arm tip) s)

/-- CHANGE_BEGIN (R81, R82). -/
def execChangeBegin (arm : Byte) (drop pick : Word) (s : State) : Host.Outcome State Fault Refusal :=
  .next (serve .changeBegin (ownChangeBegin arm drop pick) s)

/-- CHANGE_ABORT (R91). -/
def execChangeAbort (arm : Byte) (s : State) : Host.Outcome State Fault Refusal :=
  .next (serve .changeAbort (ownChangeAbort arm) s)

end Sys2Proof.Machine
end

