-- ==== Sys2Proof/Machine/StationCommands.lean ====
section
/-! DEFINITION. The station and event requests (08, 09), each the request as its owner serves it (log 7). -/
namespace Sys2Proof.Machine

/-- STATION_MODE (R147, R148, R159). -/
def execStationMode (state : Word) (s : State) : Host.Outcome State Fault Refusal :=
  .next (serve .stationMode (ownStationMode state) s)

/-- STATION_RESET (R153, R160). -/
def execStationReset (s : State) : Host.Outcome State Fault Refusal :=
  .next (serve .stationReset ownStationReset s)

/-- STATUS_READ (R161, R162, R163). -/
def execStatusRead (page selector part : Byte) (s : State) : Host.Outcome State Fault Refusal :=
  .next (serve .statusRead (ownStatusRead page selector part) s)

/-- EVENT_PRIORITY (R165). -/
def execEventPriority (source : Byte) (priority : Word) (s : State) : Host.Outcome State Fault Refusal :=
  .next (serve .eventPriority (ownEventPriority source priority) s)

/-- REPORT_LEVEL (R166). -/
def execReportLevel (level : Word) (s : State) : Host.Outcome State Fault Refusal :=
  .next (serve .reportLevel (ownReportLevel level) s)

end Sys2Proof.Machine
end

