-- ==== Sys2Proof/Machine/TableCommands.lean ====
section
/-! DEFINITION. The table requests (06), each the request as its owner serves it (log 7). -/
namespace Sys2Proof.Machine

/-- TABLE_WRITE (R121). -/
def execTableWrite (kind count : Byte) (offset : BitVec 16) (words : ParamWords) (s : State) : Host.Outcome State Fault Refusal :=
  .next (serve .tableWrite (ownTableWrite kind count offset words) s)

/-- TABLE_CLEAR (R122). -/
def execTableClear (kind : Byte) (s : State) : Host.Outcome State Fault Refusal :=
  .next (serve .tableClear (ownTableClear kind) s)

/-- TABLE_CHECK (R123, R124). -/
def execTableCheck (kind : Byte) (expected : Word) (s : State) : Host.Outcome State Fault Refusal :=
  .next (serve .tableCheck (ownTableCheck kind expected) s)

/-- TABLE_ACTIVATE (R130 to R134). -/
def execTableActivate (kind : Byte) (s : State) : Host.Outcome State Fault Refusal :=
  .next (serve .tableActivate (ownTableActivate kind) s)

/-- TABLE_READ (R135). -/
def execTableRead (kind bank : Byte) (offset : BitVec 16) (s : State) : Host.Outcome State Fault Refusal :=
  .next (serve .tableRead (ownTableRead kind bank offset) s)

end Sys2Proof.Machine
end

