-- ==== Sys2Proof/Machine/TouchCommands.lean ====
section
/-! DEFINITION. The requests on triggers, features, the workpiece and the thermal sets (02, 03), each as its owner serves it
(log 7). -/
namespace Sys2Proof.Machine

/-- TRIGGER_ARM (R49, R51, R52, R53). -/
def execTriggerArm (arm : Byte) (s : State) : Host.Outcome State Fault Refusal :=
  .next (serve .triggerArm (ownTriggerArm arm) s)

/-- TRIGGER_DISARM (R50 to R53). -/
def execTriggerDisarm (arm : Byte) (s : State) : Host.Outcome State Fault Refusal :=
  .next (serve .triggerDisarm (ownTriggerDisarm arm) s)

/-- FEATURE_OPEN (R68). -/
def execFeatureOpen (arm : Byte) (s : State) : Host.Outcome State Fault Refusal :=
  .next (serve .featureOpen (ownFeatureOpen arm) s)

/-- FEATURE_CLOSE (R69, R46). -/
def execFeatureClose (arm : Byte) (s : State) : Host.Outcome State Fault Refusal :=
  .next (serve .featureClose (ownFeatureClose arm) s)

/-- WORKPIECE_SET (R71). -/
def execWorkpieceSet (fields : ParamWords) (s : State) : Host.Outcome State Fault Refusal :=
  .next (serve .workpieceSet (ownWorkpieceSet fields) s)

/-- WORKPIECE_CLEAR (R71). -/
def execWorkpieceClear (s : State) : Host.Outcome State Fault Refusal :=
  .next (serve .workpieceClear ownWorkpieceClear s)

/-- THERMAL_ADVANCE (R44, R43). -/
def execThermalAdvance (arm : Byte) (s : State) : Host.Outcome State Fault Refusal :=
  .next (serve .thermalAdvance (ownThermalAdvance arm) s)

end Sys2Proof.Machine
end

