-- ==== Sys2Proof/Machine/Dispatch.lean ====
section
/-! DEFINITION. Each command's meaning, one arm per row of spec/opcode_table.json. -/
namespace Sys2Proof.Machine

/-- The effect of a command on everything but the queue. -/
def exec (i : Instr) (s : State) : Host.Outcome State Fault Refusal :=
  match i with
  | .cycleFrameOutbound elapsed frame out back => Sys2Proof.Machine.execCycleFrameOutbound elapsed frame out back s
  | .cycleFrameReturn elapsed frame choices => Sys2Proof.Machine.execCycleFrameReturn elapsed frame choices s
  | .pointDrain => Sys2Proof.Machine.execPointDrain s
  | .touchResolve x => Sys2Proof.Machine.execTouchResolve x s
  | .lateResolution x => Sys2Proof.Machine.execLateResolution x s
  | .triggerEdge elapsed x rising => Sys2Proof.Machine.execTriggerEdge elapsed x rising s
  | .rearmExpiry x => Sys2Proof.Machine.execRearmExpiry x s
  | .autoAdvanceExpiry x => Sys2Proof.Machine.execAutoAdvanceExpiry x s
  | .stepTimeout x => Sys2Proof.Machine.execStepTimeout x s
  | .dropComplete x => Sys2Proof.Machine.execDropComplete x s
  | .pickComplete x headLast => Sys2Proof.Machine.execPickComplete x headLast s
  | .deferredRelease zone => Sys2Proof.Machine.execDeferredRelease zone s
  | .missedFrameDeadline bFirst => Sys2Proof.Machine.execMissedFrameDeadline bFirst s
  | .badCheckFrame elapsed port frame bFirst => Sys2Proof.Machine.execBadCheckFrame elapsed port frame bFirst s
  | .wrongLengthFrame elapsed port frame bFirst => Sys2Proof.Machine.execWrongLengthFrame elapsed port frame bFirst s
  | .linkCheckFrame elapsed port frame => Sys2Proof.Machine.execLinkCheckFrame elapsed port frame s
  | .otherFrame elapsed port frame => Sys2Proof.Machine.execOtherFrame elapsed port frame s
  | .powerOnReset cut1 cut2 => Sys2Proof.Machine.execPowerOnReset cut1 cut2 s
  | .p2LinkChange elapsed up => Sys2Proof.Machine.execP2LinkChange elapsed up s
  | .p1LinkChange elapsed up => Sys2Proof.Machine.execP1LinkChange elapsed up s
  | .tableCheckComplete kind => Sys2Proof.Machine.execTableCheckComplete kind s
  | .stationMode state => Sys2Proof.Machine.execStationMode state s
  | .stationReset => Sys2Proof.Machine.execStationReset s
  | .statusRead page selector part => Sys2Proof.Machine.execStatusRead page selector part s
  | .tableWrite kind count offset words => Sys2Proof.Machine.execTableWrite kind count offset words s
  | .tableClear kind => Sys2Proof.Machine.execTableClear kind s
  | .tableCheck kind expected => Sys2Proof.Machine.execTableCheck kind expected s
  | .tableActivate kind => Sys2Proof.Machine.execTableActivate kind s
  | .tableRead kind bank offset => Sys2Proof.Machine.execTableRead kind bank offset s
  | .tipSet tip fields => Sys2Proof.Machine.execTipSet tip fields s
  | .tipRemove tip => Sys2Proof.Machine.execTipRemove tip s
  | .portSet port state tip => Sys2Proof.Machine.execPortSet port state tip s
  | .armTipSet arm tip => Sys2Proof.Machine.execArmTipSet arm tip s
  | .triggerArm arm => Sys2Proof.Machine.execTriggerArm arm s
  | .triggerDisarm arm => Sys2Proof.Machine.execTriggerDisarm arm s
  | .featureOpen arm => Sys2Proof.Machine.execFeatureOpen arm s
  | .featureClose arm => Sys2Proof.Machine.execFeatureClose arm s
  | .workpieceSet fields => Sys2Proof.Machine.execWorkpieceSet fields s
  | .workpieceClear => Sys2Proof.Machine.execWorkpieceClear s
  | .thermalAdvance arm => Sys2Proof.Machine.execThermalAdvance arm s
  | .zoneClaim arm zone => Sys2Proof.Machine.execZoneClaim arm zone s
  | .zoneRelease arm zone => Sys2Proof.Machine.execZoneRelease arm zone s
  | .holdRelease arm recover => Sys2Proof.Machine.execHoldRelease arm recover s
  | .changeBegin arm drop pick => Sys2Proof.Machine.execChangeBegin arm drop pick s
  | .changeAbort arm => Sys2Proof.Machine.execChangeAbort arm s
  | .eventPriority source priority => Sys2Proof.Machine.execEventPriority source priority s
  | .reportLevel level => Sys2Proof.Machine.execReportLevel level s
  | .powerOnResetEnd => Sys2Proof.Machine.execPowerOnResetEnd s

end Sys2Proof.Machine
end

