-- ==== Sys2Proof/Safety.lean ====
section
/-! DEFINITION. What the statements speak of: a block with nothing due, a block that serves requests, a clock that meets no
deadline, and the invariants that every step keeps. -/
namespace Sys2Proof.Machine

/-- A check whose last portion has been examined, and whose result is due (R124, R129). -/
def checkDue (t : TableState) : Bool :=
  match t.state with
  | .checking _ 0 false => true
  | _ => false

/-- Nothing that a pass, a request or a countdown leaves due for an arm is due (log 2). -/
abbrev ArmQuiet (s : State) (x : Arm) : Prop :=
  (s.tcuOf x).touchDue = .none ∧ (s.pccOf x).changeDue = false ∧ triggerOf s x ≠ .rearm 0
    ∧ (s.thuOf x).countdown ≠ some 0 ∧ (sessionOf s x).timer ≠ some 0

/-- No step is due: settling the block changes nothing. -/
abbrev NothingDue (s : State) : Prop :=
  s.rqu.awaiting = none ∧ (∀ x, ArmQuiet s x) ∧ s.tcu.drainDue = none
    ∧ (∀ z < 8, releaseDue s z = false) ∧ (∀ k, checkDue (s.tbsOf k) = false)

/-- The clock runs on for a time without leaving a supervision deadline behind (R149). -/
abbrev DeadlineAhead (elapsed : Nat) (s : State) : Prop := ∀ d ∈ s.riu.deadline, elapsed ≤ timeUntil s.riu.clock d

/-- Requests reach their owners: CONFIG or RUN, outside power-on reset (R146, R152). -/
abbrev InService (s : State) : Prop := s.riu.inReset = false ∧ s.riu.station ≠ .unaddressed

/-- The station is in RUN, outside power-on reset: every code is served (R157). -/
abbrev InRun (s : State) : Prop := s.riu.inReset = false ∧ s.riu.station = .run

/-- Whether a command is a service request (08), which reaches the Request Unit in a frame's request slot. -/
def isRequest : Instr → Bool
  | .cycleFrameOutbound _ _ _ _ => false
  | .cycleFrameReturn _ _ _ => false
  | .pointDrain => false
  | .touchResolve _ => false
  | .lateResolution _ => false
  | .triggerEdge _ _ _ => false
  | .rearmExpiry _ => false
  | .autoAdvanceExpiry _ => false
  | .stepTimeout _ => false
  | .dropComplete _ => false
  | .pickComplete _ _ => false
  | .deferredRelease _ => false
  | .missedFrameDeadline _ => false
  | .badCheckFrame _ _ _ _ => false
  | .wrongLengthFrame _ _ _ _ => false
  | .linkCheckFrame _ _ _ => false
  | .otherFrame _ _ _ => false
  | .powerOnReset _ _ => false
  | .p2LinkChange _ _ => false
  | .p1LinkChange _ _ => false
  | .tableCheckComplete _ => false
  | .stationMode _ => true
  | .stationReset => true
  | .statusRead _ _ _ => true
  | .tableWrite _ _ _ _ => true
  | .tableClear _ => true
  | .tableCheck _ _ => true
  | .tableActivate _ => true
  | .tableRead _ _ _ => true
  | .tipSet _ _ => true
  | .tipRemove _ => true
  | .portSet _ _ _ => true
  | .armTipSet _ _ => true
  | .triggerArm _ => true
  | .triggerDisarm _ => true
  | .featureOpen _ => true
  | .featureClose _ => true
  | .workpieceSet _ => true
  | .workpieceClear => true
  | .thermalAdvance _ => true
  | .zoneClaim _ _ => true
  | .zoneRelease _ _ => true
  | .holdRelease _ _ => true
  | .changeBegin _ _ _ => true
  | .changeAbort _ => true
  | .eventPriority _ _ => true
  | .reportLevel _ => true
  | .powerOnResetEnd => false

/-- The block is out of power-on reset and nothing is due at a time that leaves no deadline behind: a command that lets the
clock run on meets the state as it stands. -/
abbrev Settled (elapsed : Nat) (s : State) : Prop :=
  s.riu.inReset = false ∧ NothingDue s ∧ DeadlineAhead elapsed s

/-- The clock of a state run on by a time, with nothing sent yet of a frame that arrives then. -/
def laterRiu (elapsed : Nat) (s : State) : Riu :=
  { s.riu with clock := clockAfter s.riu.clock elapsed, sent1 := none, sent2 := none }

/-- A frame that arrives at P1 leaves at P2, or at P1 when P2's link is down. -/
def sentOn (ok : Bool) (f : RingFrame) (r : Riu) : Riu :=
  if r.p2Up then { r with sent2 := some ⟨f, ok⟩ } else { r with sent1 := some ⟨f, ok⟩ }

/-- R43: the applied set that an advance gives an arm. -/
def advancedSet (s : State) (x : Arm) : AppliedSet :=
  { scaleX := (aggregateOf s (scaleIndex x)).temp, scaleY := (aggregateOf s (scaleIndex x + 1)).temp,
    scaleZ := (aggregateOf s (scaleIndex x + 2)).temp, workpiece := (aggregateOf s 6).temp,
    air := (aggregateOf s 7).temp, epoch := (s.thuOf x).applied.epoch + 1 }

/-- R45: the countdown that an interval loads; 0 leaves it stopped. -/
def loadedCountdown (s : State) : Option Nat :=
  if activeField (·.autoInterval) s = 0 then none else some (activeField (·.autoInterval) s)

/-- The five temperatures of an applied set. -/
def appliedTemps (a : AppliedSet) : List Temperature := [a.scaleX, a.scaleY, a.scaleZ, a.workpiece, a.air]

/-- The code byte of an arm, and of a table kind (10.2). -/
def armByte (x : Arm) : Byte := BitVec.ofNat 8 (armCode x)
def kindByte (k : TableKind) : Byte := BitVec.ofNat 8 (kindCode k)

/-- The bytes of a payload from an offset on. -/
def bytesAt (p : Memory 8) (off n : Nat) : List Byte := (List.range n).map (fun i => Memory.read p (off + i))

/-- A signed 32-bit number in four bytes from an offset on, least significant first. -/
def intAt (p : Memory 8) (off : Nat) : Int := (BitVec.ofNat 32 (Memory.readLE p off 4)).toInt

/-- R50, R63, R64, R66: what TOUCH_RESOLVE and LATE_RESOLUTION leave, for the position `p` of a touch with latch record `l`, the
entry `b` named by the point, and the entries `used`. -/
structure TouchEnds (s t : State) (x : Arm) (l : Latch) (p : Vec3) (b : HistoryEntry) (used : List HistoryEntry)
    (unbracketed gap late : Bool) : Prop where
  /-- The point, when the queue has room, joins at the tail; its fields are those of R64. -/
  queued : s.tcu.queue.length < 32 → ∃ pt, t.tcu.queue = s.tcu.queue ++ [pt]
    ∧ pt.arm = x ∧ pt.seq = l.seq ∧ pt.tip = b.tip ∧ pt.feature = l.feature ∧ pt.epoch = (s.thuOf x).applied.epoch
    ∧ pt.generation = b.generation ∧ pt.trg = l.trg
    ∧ pt.pos = stage5 (roundingMode s) (pointPosition s x p)
    ∧ pt.flags.getLsbD 0 = unbracketed ∧ pt.flags.getLsbD 1 = gap ∧ pt.flags.getLsbD 2 = late
    ∧ pt.flags.getLsbD 3 = l.double ∧ pt.flags.getLsbD 4 = used.any (fun e => e.flags.getLsbD 1)
    ∧ pt.flags.getLsbD 5 = decide (saturatedAxes (roundingMode s) (pointPosition s x p) ≠ 0)
    ∧ pt.flags.getLsbD 6 = (used.any (fun e => e.flags.getLsbD 4) || (s.thuOf x).applied.workpiece.stale
        || (s.thuOf x).applied.air.stale)
    ∧ pt.flags.getLsbD 7 = (used.any (fun e => e.flags.getLsbD 5) || (s.thuOf x).applied.workpiece.clamp
        || (s.thuOf x).applied.air.clamp)
    ∧ (pt.flags.getLsbD 8 = true ↔ ∃ r ∈ b.tip, stationField (·.band) s ≠ 0
        ∧ (stationField (·.band) s : Int) < |(s.thuOf x).applied.air.value - (tipOf s r.id).airTemp|)
    ∧ pt.flags.getLsbD 9 = !s.tcu.workpiece.valid
  /-- At a full queue it is dropped. -/
  dropped : 32 ≤ s.tcu.queue.length → t.tcu.queue = s.tcu.queue
  /-- The event of a saturation onset (R62), and after it that of a dropped point. -/
  events : t.evu = (whenDo (decide (32 ≤ s.tcu.queue.length)) (post .pointLost (.pointLost x l.seq .queueFull))
    (whenDo (decide (saturatedAxes (roundingMode s) (pointPosition s x p) ≠ 0) && !(s.cenOf x).satSeen)
      (post .numeric (.numeric x true false (saturatedAxes (roundingMode s) (pointPosition s x p)) 0)) s)).evu
  /-- The sticky flag, and the causes under the hold mask. -/
  corrected : t.cen = s.cen.modify x (fun c => { c with
    satSeen := c.satSeen || decide (saturatedAxes (roundingMode s) (pointPosition s x p) ≠ 0) })
  held : t.mgd = (whenDo (decide (32 ≤ s.tcu.queue.length)) (raiseMasked x .pointLost .pointLost)
    (whenDo (decide (saturatedAxes (roundingMode s) (pointPosition s x p) ≠ 0) && !(s.cenOf x).satSeen)
      (raiseMasked x .numeric .numeric) s)).mgd
  /-- R59, R52: the trigger. -/
  ended : ∀ b, armBank x s = some b → t.tcu.arm = s.tcu.arm.modify x (fun u => { u with
    trigger := if l.disarmAfter then .disarmed else .rearm (wordNat b 38), touchDue := .none })
  /-- Nothing else changes. -/
  rest : t = { s with tcu := { s.tcu with arm := t.tcu.arm, queue := t.tcu.queue }, cen := t.cen, mgd := t.mgd, evu := t.evu }

/-- R57, R58: what a late resolution of an arm leaves: a trigger that is not LATCHED alone; otherwise the point of the newest
history entry, or with an empty history a point lost. -/
structure LateEnds (s t : State) (x : Arm) : Prop where
  idle   : armLatched s x = false → t = s
  entry  : ∀ l e, triggerOf s x = .latched l → (s.cenOf x).history.getLast? = some e →
    TouchEnds s t x l e.t e [e] false false true
  nobody : ∀ l m, triggerOf s x = .latched l → (s.cenOf x).history = [] → armBank x s = some m →
    t = ((if (Memory.read m 39).getLsbD 3 then raise x .pointLost else id)
        (post .pointLost (.pointLost x l.seq .noPosition) s)).onTcu x (fun u =>
      { u with trigger := if l.disarmAfter then .disarmed else .rearm (wordNat m 38), touchDue := .none })

/-- R89, R90: what the onset of ring loss makes of an arm's session and posts for it. -/
def ringFaulted (c : Session) : Session :=
  if inStep c then { c with state := .fault, timer := none, fault := some .ring } else c
def ringFaultPost (x : Arm) (s : State) : State :=
  if inStep (sessionOf s x) then post (.change x) (.fault .ring none none 0) s
  else
    match (sessionOf s x).fault with
    | some kept => post (.change x) (.furtherFault kept .ring) s
    | none => s

/-- The release of zone 0 that the end of an arm's session requests (R88, R91), taken as R104 and R103 state; `w` says
whether the zone has a waiter. -/
def sessionRelease (x : Arm) (w : Bool) (s : State) : State :=
  let y := otherArm x
  if insideOf s x 0 ≠ .outside then setZone 0 (.held x true w) s
  else if w = false then setZone 0 .free s
  else
    let granted := post (.zone y) (.granted 0) (setZone 0 (.held y false false) (post (.zone x) (.released 0) s))
    if (sessionOf s y).state = .waitZone then
      onSession y (fun c => { c with
        state := if c.dropTip.isSome then .drop else .pick, timer := some (stationField (·.stepTimeout) s) }) granted
    else granted

/-- The end of an arm's session: the trigger restored, the record IDLE (R88, R91). -/
def sessionEnd (x : Arm) (s : State) : State :=
  (s.onTcu x (fun u => { u with trigger := if u.trigger = .suppressed then .disarmed else u.trigger })).onPcc x
    (fun p => { p with session := Session.idle, changeDue := false })

/-! ## The words of the status pages (10.5) -/

/-- Byte `i` of a word, and word `i` of a page part; words beyond those given are zero. -/
abbrev byteAt (w : Word) (i : Nat) : Byte := w.extractLsb' (8 * i) 8
abbrev wordAt (ws : List Word) (i : Nat) : Word := ws.getD i 0

/-- A number as a byte, and an optional number as a word, 0xFFFFFFFF when absent. -/
abbrev byteOf (n : Nat) : Byte := BitVec.ofNat 8 n
abbrev wordOr (n : Option Nat) : Word := (n.map (BitVec.ofNat 32)).getD 0xFFFFFFFF

/-- A temperature in bits 0 to 23 of a word, STALE in bit 24, CLAMP in bit 25. -/
abbrev ShowsTemp (w : Word) (t : Temperature) : Prop :=
  w.extractLsb' 0 24 = BitVec.ofInt 24 t.value ∧ w.getLsbD 24 = t.stale ∧ w.getLsbD 25 = t.clamp

/-- STATION. -/
structure StationWords (s : State) (ws : List Word) : Prop where
  bytes  : byteAt (wordAt ws 0) 0 = (match s.riu.station with
      | .unaddressed => 0
      | .config => 1
      | .run => 2)
    ∧ byteAt (wordAt ws 0) 1 = s.riu.address.getD 0 ∧ byteAt (wordAt ws 0) 2 = 1
  bits   : (wordAt ws 0).getLsbD 24 = s.riu.ringLoss ∧ (wordAt ws 0).getLsbD 25 = s.riu.p2Up
    ∧ (wordAt ws 0).getLsbD 26 = s.tcu.workpiece.valid ∧ (wordAt ws 0).extractLsb' 27 5 = 0
  clock  : (wordAt ws 1).toNat + 2 ^ 32 * (wordAt ws 2).toNat = s.riu.clockAtAlign.toNat
  frame  : (wordAt ws 3).extractLsb' 0 16 = s.riu.frameAtAlign ∧ byteAt (wordAt ws 3) 2 = byteOf s.tcu.queue.length
  counts : (wordAt ws 4).extractLsb' 0 16 = BitVec.ofNat 16 s.riu.missed
    ∧ (wordAt ws 4).extractLsb' 16 16 = BitVec.ofNat 16 s.riu.turned
  dead   : (∀ d ∈ s.riu.deadline, (wordAt ws 5).toNat + 2 ^ 32 * (wordAt ws 6).toNat = d.toNat)
    ∧ (s.riu.deadline = none → wordAt ws 5 = 0xFFFFFFFF ∧ wordAt ws 6 = 0xFFFFFFFF)
  origin : let v := (wordAt ws 7).toNat + 2 ^ 32 * ((wordAt ws 8).toNat + 2 ^ 32 * ((wordAt ws 9).toNat
      + 2 ^ 32 * (wordAt ws 10).toNat))
    BitVec.ofNat 40 v = BitVec.ofInt 40 s.tcu.workpiece.origin.x
      ∧ BitVec.ofNat 40 (v / 2 ^ 40) = BitVec.ofInt 40 s.tcu.workpiece.origin.y
      ∧ BitVec.ofNat 40 (v / 2 ^ 80) = BitVec.ofInt 40 s.tcu.workpiece.origin.z
  alpha  : wordAt ws 11 = BitVec.ofNat 32 s.tcu.workpiece.coefficient
  length : ws.length = 12

/-- ARM(x), part 0. -/
structure ArmWords0 (s : State) (x : Arm) (ws : List Word) : Prop where
  bytes  : byteAt (wordAt ws 0) 0 = byteOf ((mountedTip s x).getD 0)
    ∧ byteAt (wordAt ws 0) 1 = byteOf (s.cenOf x).history.length
    ∧ byteAt (wordAt ws 0) 2 = (match triggerOf s x with
      | .disarmed => 0
      | .armed => 1
      | .latched _ => 2
      | .rearm _ => 3
      | .suppressed => 4)
  bits   : (wordAt ws 0).getLsbD 24 = (s.cenOf x).satSeen ∧ (wordAt ws 0).getLsbD 25 = (s.cenOf x).rangeSeen
    ∧ (wordAt ws 0).getLsbD 26 = (s.cenOf x).reader
    ∧ ((wordAt ws 0).getLsbD 27 = true ↔ ∃ l, triggerOf s x = .latched l ∧ l.double = true)
    ∧ ((wordAt ws 0).getLsbD 28 = true ↔ ∃ l, triggerOf s x = .latched l ∧ l.disarmAfter = true)
    ∧ (wordAt ws 0).getLsbD 29 = (s.tcuOf x).bracketOpen ∧ (wordAt ws 0).getLsbD 30 = (s.thuOf x).deferred
  next   : (wordAt ws 1).extractLsb' 0 16 = (s.tcuOf x).nextSeq ∧ byteAt (wordAt ws 1) 2 = (s.tcuOf x).feature
    ∧ (wordAt ws 1).extractLsb' 24 6 = (s.cenOf x).limit
  age    : wordAt ws 2 = wordOr (match triggerOf s x with
      | .latched l => some l.age
      | .rearm n => some n
      | _ => none)
  left   : wordAt ws 3 = wordOr (s.thuOf x).countdown
  temps  : ∀ i < 5, ∀ t, (appliedTemps (s.thuOf x).applied)[i]? = some t → ShowsTemp (wordAt ws (4 + i)) t
  epoch  : wordAt ws 9 = (s.thuOf x).applied.epoch.setWidth 32
  length : ws.length = 10

/-- ARM(x), part 1; an empty drop or pick tip is 0, an empty port and a head never read 255 (log 13), and of the fault cause
only a session that has one speaks (log 13). -/
structure ArmWords1 (s : State) (x : Arm) (ws : List Word) : Prop where
  session : byteAt (wordAt ws 0) 0 = (match (sessionOf s x).state with
      | .idle => 0
      | .waitZone => 1
      | .drop => 2
      | .pick => 3
      | .fault => 4)
    ∧ byteAt (wordAt ws 0) 1 = byteOf ((sessionOf s x).dropTip.getD 0)
    ∧ byteAt (wordAt ws 0) 2 = byteOf ((sessionOf s x).dropPort.getD 255)
    ∧ byteAt (wordAt ws 0) 3 = byteOf ((sessionOf s x).pickTip.getD 0)
    ∧ byteAt (wordAt ws 1) 0 = byteOf ((sessionOf s x).pickPort.getD 255)
  fault   : ∀ c, (sessionOf s x).fault = some c → byteAt (wordAt ws 1) 1 = (match c with
      | .timeout => 1
      | .ring => 2
      | .identity => 3)
  head    : byteAt (wordAt ws 1) 2 = (match (s.pccOf x).headLast with
      | none => 255
      | some .seated => 0
      | some .opened => 1
      | some .fault => 2)
    ∧ byteAt (wordAt ws 1) 3 = (if (s.pccOf x).consistent then 0 else 1)
  timer   : wordAt ws 2 = wordOr (sessionOf s x).timer
  code    : (wordAt ws 3).extractLsb' 0 16 = (s.pccOf x).codeLast ∧ byteAt (wordAt ws 3) 2 = (s.mgdOf x).latches
    ∧ byteAt (wordAt ws 3) 3 = 0
  sets    : wordAt ws 4 = (s.mgdOf x).causes.setWidth 32 ∧ wordAt ws 5 = (s.mgdOf x).creep.setWidth 32
  length  : ws.length = 6

/-- EVENTS, with the detail of source `n`; a source that is not pending shows three absent words (log 13). -/
structure EventsWords (s : State) (n : Nat) (ws : List Word) : Prop where
  level    : wordAt ws 0 = BitVec.ofNat 32 s.evu.reportLevel
  sources  : ∀ m < 17, ∀ q, s.evu.sources[m]? = some q →
    (wordAt ws 1).getLsbD m = q.detail.isSome ∧ (wordAt ws 2).getLsbD m = q.overrun
      ∧ (wordAt ws (3 + m / 8)).extractLsb' (4 * (m % 8)) 4 = BitVec.ofNat 4 q.priority
  unused   : (wordAt ws 1).extractLsb' 17 15 = 0 ∧ (wordAt ws 2).extractLsb' 17 15 = 0
    ∧ (wordAt ws 5).extractLsb' 4 28 = 0
  detail   : ∀ q, s.evu.sources[n]? = some q →
    ws.drop 6 = (q.detail.map detailWords).getD (List.replicate 3 0xFFFFFFFF)
  length   : ws.length = 9

/-- TABLES; words left, a sum and an offset are absent where the state and the last result have none (log 13). -/
structure TablesWords (t : TableState) (ws : List Word) : Prop where
  state  : byteAt (wordAt ws 0) 0 = (match t.state with
      | .empty => 0
      | .unchecked => 1
      | .checking _ _ _ => 2
      | .passed => 3
      | .failed => 4)
    ∧ byteAt (wordAt ws 0) 1 = (if t.active = none then 0 else 1) ∧ (wordAt ws 0).extractLsb' 16 16 = t.generation
  left   : wordAt ws 1 = (match t.state with
      | .checking _ left _ => BitVec.ofNat 32 left
      | _ => 0xFFFFFFFF)
  result : wordAt ws 2 = (match t.lastResult with
      | none => 0
      | some .passed => 1
      | some (.failedSum _) => 2
      | some (.failedContent _) => 3)
    ∧ wordAt ws 3 = (match t.lastResult with
      | some (.failedSum v) => v
      | some (.failedContent o) => BitVec.ofNat 32 o
      | _ => 0xFFFFFFFF)
  length : ws.length = 4

/-- The three words of a channel on the CHANNELS page. -/
structure ChannelWords (c : Channel) (w0 w1 w2 : Word) : Prop where
  state  : byteAt w0 0 = (match c.state with
    | .noData => 0
    | .valid => 1
    | .held => 2
    | .failed => 3)
  count  : byteAt w0 1 = byteOf c.count
  reason : byteAt w0 2 = (match c.reason with
    | none => 0
    | some .status => 1
    | some .range => 2
    | some .rate => 3)
  seen   : byteAt w0 3 = (c.counter.map (·.setWidth 8)).getD 0xFF
  value  : w1 = (c.filter.map (fun f => BitVec.ofInt 32 ((f.y + 128) / 256))).getD 0x80000000
  last   : w2 = (c.filter.map (fun f => BitVec.ofInt 32 f.last)).getD 0x80000000

/-- The seven words of a tip on the TIPS page; of the port byte only a tip at a port speaks (log 13). -/
structure TipWords (t : Tip) (ws : List Word) : Prop where
  offset : wordAt ws 0 = BitVec.ofInt 32 t.offset.x ∧ wordAt ws 1 = BitVec.ofInt 32 t.offset.y
    ∧ wordAt ws 2 = BitVec.ofInt 32 t.offset.z
  fields : wordAt ws 3 = BitVec.ofNat 32 t.radius ∧ wordAt ws 4 = BitVec.ofNat 32 t.latency
  code   : (wordAt ws 5).extractLsb' 0 16 = t.code ∧ (wordAt ws 5).extractLsb' 16 16 = BitVec.ofNat 16 t.airTemp
  place  : byteAt (wordAt ws 6) 0 = (if t.present then 1 else 0) ∧ byteAt (wordAt ws 6) 1 = t.revision
    ∧ byteAt (wordAt ws 6) 2 = (match t.location with
      | .absent => 0
      | .port _ => 1
      | .onArm .a => 2
      | .onArm .b => 3
      | .unknown => 4)
    ∧ ∀ p, t.location = .port p → byteAt (wordAt ws 6) 3 = byteOf p

/-- A port's word on the PORTS page; the tip byte of a port that holds none is 0 (log 13). -/
structure PortWord (s : State) (p : Nat) (w : Word) : Prop where
  state : byteAt w 0 = (match portOf s p with
    | .disabled => 0
    | .empty => 1
    | .holds _ => 2
    | .unverified => 3)
  tip   : byteAt w 1 = (match portOf s p with
    | .holds t => byteOf t
    | _ => 0)
  shown : byteAt w 2 = (match s.pcc.occupancy with
    | none => 2
    | some r => if r.getLsbD p then 1 else 0)
  rest  : byteAt w 3 = 0

/-- A zone's word on the ZONES page. -/
structure ZoneWord (s : State) (z : Nat) (w : Word) : Prop where
  free : zoneOf s z = .free → byteAt w 0 = 0 ∧ byteAt w 2 = 0 ∧ byteAt w 3 = 255
  held : ∀ h r v, zoneOf s z = .held h r v → byteAt w 0 = 1 ∧ byteAt w 1 = armByte h
    ∧ byteAt w 2 = (if r then 1 else 0) ∧ byteAt w 3 = (if v then armByte (otherArm h) else 255)

/-! ## Field slots -/

/-- The active SLOT MAP places the slot of a kind and an instance at a byte offset (R127, 10.6). -/
abbrev SlotAt (s : State) (kind which off : Nat) : Prop :=
  ∃ m, activeBank .slotMap s = some m ∧ ∃ e < 16,
    wordNat m (3 * e) = kind ∧ wordNat m (3 * e + 1) = which ∧ wordNat m (3 * e + 2) = off
      ∧ ∀ d < e, ¬ (wordNat m (3 * d) = kind ∧ wordNat m (3 * d + 1) = which)

/-- The written mark of the slot at a byte offset (10.4). -/
abbrev marked (p : Memory 8) (off : Nat) : Prop := (Memory.read p off).getLsbD 0 = true

/-- Nothing is read for a slot: none is placed, or its written mark is clear. -/
abbrev SlotUnread (s : State) (p : Memory 8) (kind which : Nat) : Prop := ∀ off, SlotAt s kind which off → ¬ marked p off

/-- The arm's hold mask carries a bit (R6). -/
abbrev MaskHas (s : State) (x : Arm) (bit : Nat) : Prop := ∃ b, armBank x s = some b ∧ (Memory.read b 39).getLsbD bit = true

/-! ## The content rules (R127, R128) -/

/-- A used entry of a SLOT MAP bank. -/
abbrev usedEntry (b : Bank) (e : Nat) : Prop := e < 16 ∧ wordNat b (3 * e) ≠ 0

/-- The length of a slot by its kind code (R127). -/
def lengthOf (kind : Nat) : Nat :=
  match kind with
  | 1 => 24
  | 2 => 20
  | 3 => 8
  | 4 => 4
  | _ => 0

/-- The slot of an entry meets a run of bytes. -/
abbrev entryMeets (b : Bank) (e off len : Nat) : Prop :=
  wordNat b (3 * e + 2) < off + len ∧ off < wordNat b (3 * e + 2) + lengthOf (wordNat b (3 * e))

/-- R127, R132: an entry's slot meets the 256 bytes of a station window. -/
abbrev meetsWindowAt (b : Bank) (e w : Nat) : Prop := usedEntry b e ∧ entryMeets b e w 256

/-- Where a SLOT MAP breaks a rule: its kind, its instance or a repeated slot, its place (log 12: at the later entry). -/
abbrev slotMapBroken (b : Bank) (window : Option Nat) (o : Nat) : Prop :=
  ∃ e, usedEntry b e ∧
    let kind := wordNat b (3 * e)
    let which := wordNat b (3 * e + 1)
    let off := wordNat b (3 * e + 2)
    (o = 3 * e ∧ 4 < kind)
      ∨ (o = 3 * e + 1 ∧ kind ≤ 4 ∧ ¬ ((kind = 2 ∧ which < 6) ∨ (kind = 4 ∧ which = 0)
          ∨ ((kind = 1 ∨ kind = 3) ∧ which < 2)))
      ∨ (o = 3 * e + 1 ∧ ∃ d < e, usedEntry b d ∧ wordNat b (3 * d) = kind ∧ wordNat b (3 * d + 1) = which)
      ∨ (o = 3 * e + 2 ∧ (off % 4 ≠ 0 ∨ 1472 < off + lengthOf kind
          ∨ (∃ w ∈ window, meetsWindowAt b e w)
          ∨ ∃ d < e, usedEntry b d ∧ entryMeets b e (wordNat b (3 * d + 2)) (lengthOf (wordNat b (3 * d)))))

/-- Where a STATION RECORD breaks a rule, against the used slots of the active SLOT MAP. -/
abbrev stationBroken (b : Bank) (slots : Option Bank) (o : Nat) : Prop :=
  let v := wordNat b o
  (o = 0 ∧ (v % 4 ≠ 0 ∨ 1216 < v ∨ ∃ m ∈ slots, ∃ e, meetsWindowAt m e v))
    ∨ (o = 1 ∧ (v < 50 ∨ 4000 < v)) ∨ (o = 2 ∧ 255 < v) ∨ (o = 3 ∧ 3 < v) ∨ (o = 4 ∧ 2 < v)
    ∨ (o = 5 ∧ (v < 2 ∨ 16 < v)) ∨ (o = 6 ∧ (v < 1 ∨ 65535 < v)) ∨ (o = 7 ∧ 65535 < v) ∨ (o = 8 ∧ 40000 < v)

/-- Where a ZONE TABLE breaks a rule: a high corner not above the low one, an enabled code that is none. -/
abbrev zoneBroken (b : Bank) (o : Nat) : Prop :=
  ∃ z < 8, (o = 8 * z + 3 ∧ (zoneRecord b z).hi.x ≤ (zoneRecord b z).lo.x)
    ∨ (o = 8 * z + 5 ∧ (zoneRecord b z).hi.y ≤ (zoneRecord b z).lo.y)
    ∨ (o = 8 * z + 6 ∧ (zoneRecord b z).hi.z ≤ (zoneRecord b z).lo.z)
    ∨ (o = 8 * z + 7 ∧ 1 < ((Memory.read b o).extractLsb' 16 8).toNat)

/-- Where a CHANNEL TABLE breaks a rule; a record with role NONE is not tested further. -/
abbrev channelBroken (b : Bank) (o : Nat) : Prop :=
  ∃ c < 24, wordNat b (8 * c) ≠ 0 ∧
    let v := wordNat b o
    let i := wordInt b o
    (o = 8 * c ∧ 8 < v) ∨ (o = 8 * c + 1 ∧ 5 < v) ∨ (o = 8 * c + 2 ∧ 3 < v)
      ∨ (o = 8 * c + 3 ∧ (i < -20000 ∨ 80000 < i))
      ∨ (o = 8 * c + 4 ∧ (i < -20000 ∨ 80000 < i ∨ i ≤ wordInt b (8 * c + 3)))
      ∨ (o = 8 * c + 5 ∧ (v < 1 ∨ 10000 < v)) ∨ (o = 8 * c + 6 ∧ 15 < v) ∨ (o = 8 * c + 7 ∧ (v < 1 ∨ 255 < v))

/-- A word, or two words, that hold a signed field of 24 or of 40 bits whose upper bits repeat its sign (10). -/
abbrev fits24 (b : Bank) (o : Nat) : Prop := -2 ^ 23 ≤ wordInt b o ∧ wordInt b o < 2 ^ 23
abbrev fits40 (b : Bank) (o : Nat) : Prop := -2 ^ 7 ≤ wordInt b (o + 1) ∧ wordInt b (o + 1) < 2 ^ 7

/-- Where an ARM MAP breaks a rule: in the arm record, and in its twelve tables. -/
abbrev armMapBroken (b : Bank) (o : Nat) : Prop :=
  (∃ a < 3, let v := wordNat b o
    (o = 11 * a ∧ (v < 1 ∨ 100000 < v)) ∨ (o = 11 * a + 3 ∧ 30000 < v)
      ∨ ((o = 11 * a + 1 ∨ o = 11 * a + 4 ∨ o = 11 * a + 6 ∨ o = 11 * a + 8) ∧ ¬ fits40 b o)
      ∨ (o = 11 * a + 6 ∧ word40 b (11 * a + 6) ≤ word40 b (11 * a + 4))
      ∨ (o = 11 * a + 10 ∧ v ≠ 1 ∧ v ≠ 2 ^ 32 - 1))
    ∨ ((o = 33 ∨ o = 34 ∨ o = 35) ∧ ¬ fits24 b o)
    ∨ (o = 36 ∧ 500000000 < wordNat b o) ∨ (o = 37 ∧ 1 < wordNat b o)
    ∨ (o = 38 ∧ (wordNat b o < 1 ∨ 255 < wordNat b o)) ∨ (o = 39 ∧ 15 < wordNat b o)
    ∨ ∃ i < 12, let base := 68 + 69 * i
      let pitch := wordNat b (base + 2)
      let count := wordNat b (base + 3)
      (o = base ∧ ¬ fits40 b o) ∨ (o = base + 2 ∧ pitch ≠ 0 ∧ (pitch < 1000000 ∨ 200000000 < pitch))
        ∨ (o = base + 3 ∧ count ≠ 0 ∧ (count < 2 ∨ 65 < count))
        ∨ ((count = 0 ∨ (2 ≤ count ∧ count ≤ 65)) ∧
            ∃ n < (if count = 0 then 2 else count), o = base + 4 + n ∧ ¬ fits24 b o)

/-- R127, R128: where the staging bank of a kind breaks a content rule, at the word R126 names. -/
def brokenAt (k : TableKind) (b : Bank) (s : State) (o : Nat) : Prop :=
  match k with
  | .slotMap => slotMapBroken b ((stationRecord s).map (·.window)) o
  | .armMap _ => armMapBroken b o
  | .channelTable => channelBroken b o
  | .zoneTable => zoneBroken b o
  | .stationRecord => stationBroken b (activeBank .slotMap s) o

/-- R132: the offset of the word where the slots of an activation and the station window meet. -/
def crossMet (k : TableKind) (s : State) (o : Nat) : Prop :=
  let staging := (s.tbsOf k).staging
  match k with
  | .slotMap => ∃ b, activeBank .stationRecord s = some b ∧ ∃ e, o = 3 * e + 2 ∧ meetsWindowAt staging e (wordNat b 0)
      ∧ ∀ d < e, ¬ meetsWindowAt staging d (wordNat b 0)
  | .stationRecord => o = 0 ∧ ∃ m, activeBank .slotMap s = some m ∧ ∃ e, meetsWindowAt m e (wordNat staging 0)
  | _ => False

/-! ## A return pass in the default order (log 5) -/

/-- A pass's parts for one arm: the correction with its position block, and for a valid sample the onsets, the soft limits and
the Motion Guard's part (R2, R19, R22, R26). -/
def armParts (x : Arm) (input : Memory 8) (window : Nat) (s : State) : State :=
  let r := correctArm x input s
  let s1 := writeReturn (window + windowPosition x) r.block r.state
  match r.chain with
  | some c => monitorArm x c.t (passLimits x c (numericOnset x c.saturated c.beyond s1))
  | none => s1

/-- The whole pass, on the state as the frame in flight finds it: the banks in force, the empty point slots, the Thermal
Unit, the two arms, the two heads, the rack, the checks, and the selection. -/
def defaultPass (n : InFlight) (f : RingFrame) (channels aggregates ports : List Nat) (s : State) : State :=
  let s1 := openDrain n.window (takeFrame f (refreshRecord (refreshMap .b (refreshMap .a s))))
  let s2 := thermalPass n.sync f.payload (thermalSteps channels aggregates) s1
  let s3 := armParts .b f.payload n.window (armParts .a f.payload n.window s2)
  let s4 := readStatus .b f.payload (readStatus .a f.payload s3)
  let s5 := checksPass (rackPass f.payload [] (rackSteps ports) s4)
  let e := selectEvent s5
  finishReturn n.window (writeReturn (n.window + windowEvent) e.1 e.2)

/-! ## Invariants -/

/-- Stored numbers stay in their ranges, and every table of objects keeps its size (R24, R66, R72, R76, R101, R141, R149,
R165, R166; 02, 9.1). -/
abbrev NumbersBounded (s : State) : Prop :=
  s.tcu.queue.length ≤ 32 ∧ s.riu.missed ≤ 65535 ∧ s.riu.turned ≤ 65535 ∧ (∀ x, (s.cenOf x).history.length ≤ 4)
    ∧ s.evu.reportLevel ≤ 7 ∧ s.evu.sources.length = 17 ∧ (∀ q ∈ s.evu.sources, q.priority ≤ 7)
    ∧ s.pcc.tips.length = 32 ∧ s.pcc.ports.length = 12 ∧ s.mgd.zones.length = 8 ∧ s.thu.channels.length = 24
    ∧ s.thu.aggregates.length = 8

/-- An arm has one inside record per zone (R100), and a channel a filter state exactly outside NO_DATA (R33 to R37). -/
abbrev RecordsKept (s : State) : Prop :=
  (∀ x, (s.mgdOf x).inside.length = 8) ∧ (∀ c ∈ s.thu.channels, c.filter = none ↔ c.state = .noData)

/-- R53: an arm's trigger is SUPPRESSED exactly when its change session is not IDLE. -/
abbrev SuppressedWithSession (s : State) : Prop :=
  ∀ x, triggerOf s x = .suppressed ↔ (sessionOf s x).state ≠ .idle

/-- R54, R83, R92, R148: outside RUN a trigger is DISARMED or SUPPRESSED, a session is IDLE or FAULT, and no auto-advance
countdown runs. -/
abbrev RestsOutsideRun (s : State) : Prop :=
  s.riu.station ≠ .run → ∀ x,
    (triggerOf s x = .disarmed ∨ triggerOf s x = .suppressed)
      ∧ ((sessionOf s x).state = .idle ∨ (sessionOf s x).state = .fault) ∧ (s.thuOf x).countdown = none

/-- R80, R82, R84, R89: the fields of a session record fit its state. -/
abbrev SessionFieldsFit (s : State) : Prop :=
  ∀ x, ((sessionOf s x).state = .idle → sessionOf s x = Session.idle)
    ∧ ((sessionOf s x).timer.isSome = inStep (sessionOf s x))
    ∧ ((sessionOf s x).fault.isSome = true ↔ (sessionOf s x).state = .fault)
    ∧ ((sessionOf s x).dropTip.isSome = (sessionOf s x).dropPort.isSome)
    ∧ ((sessionOf s x).pickTip.isSome = (sessionOf s x).pickPort.isSome)
    ∧ ((sessionOf s x).state = .waitZone → (sessionOf s x).dropTip.isSome = true ∨ (sessionOf s x).pickTip.isSome = true)
    ∧ ((sessionOf s x).state = .drop → (sessionOf s x).dropTip.isSome = true)
    ∧ ((sessionOf s x).state = .pick → (sessionOf s x).pickTip.isSome = true)

/-- A bank is held in the canonical form and within its kind's capacity (R119). -/
def bankOk (k : TableKind) (b : Bank) : Bool := Memory.wf b && Memory.below b (capacity k)

/-- R119, R120: every bank is canonical and within its capacity, and an EMPTY staging bank holds zero in every word. -/
abbrev BanksCanonical (s : State) : Prop :=
  (∀ k, bankOk k (s.tbsOf k).staging = true ∧ (∀ b ∈ (s.tbsOf k).active, bankOk k b = true)
    ∧ ((s.tbsOf k).state = .empty → (s.tbsOf k).staging = []))
    ∧ (∀ x, ∀ f ∈ (s.cenOf x).inForce, bankOk (.armMap x) f.bank = true)
    ∧ (∀ b ∈ s.riu.record, bankOk .stationRecord b = true)

/-- A bank keeps the content rules that concern it alone, those against other kinds' active banks left out (R127, R128). -/
def keepsRules (k : TableKind) (b : Bank) : Bool := (rulesAgainst k b none none).all (·.holds)

/-- R126, R129, R130: an active bank has passed a check, and so has a staging bank in PASSED: each keeps the content rules. -/
abbrev BanksSound (s : State) : Prop :=
  ∀ k, (∀ b ∈ (s.tbsOf k).active, keepsRules k b = true)
    ∧ ((s.tbsOf k).state = .passed → keepsRules k (s.tbsOf k).staging = true)

/-- R110, R111, R144, R146: in CONFIG both arms' sets contain MODE, during ring loss RING, and a station has an address
exactly when it is not UNADDRESSED. -/
abbrev HoldsStand (s : State) : Prop :=
  (s.riu.station = .config → ∀ x, hasCause (s.mgdOf x).causes .mode = true)
    ∧ (s.riu.ringLoss = true → ∀ x, hasCause (s.mgdOf x).causes .ring = true)
    ∧ (s.riu.station = .unaddressed ↔ s.riu.address = none)

/-- Whether a zone has a waiter. -/
def zoneWaited (s : State) (z : Nat) : Bool :=
  match zoneOf s z with
  | .held _ _ w => w
  | .free => false

/-- Whether the arm holds zone 0 for its session, without the RELEASING mark. -/
def keepsZone0 (s : State) (x : Arm) : Bool := decide (zoneOf s 0 = .held x false false) || decide (zoneOf s 0 = .held x false true)

/-- R80, R101, R102: at most one zone has a waiter, so that no cycle of waits can form; a session that waits has its place
at zone 0, and one in DROP, PICK or FAULT holds it. -/
abbrev ZonesOrderly (s : State) : Prop :=
  (∀ y < 8, ∀ z < 8, zoneWaited s y = true → zoneWaited s z = true → y = z)
    ∧ (∀ x, ((sessionOf s x).state = .waitZone → waitsOn s x 0 = true)
        ∧ ((inStep (sessionOf s x) = true ∨ (sessionOf s x).state = .fault) → keepsZone0 s x = true))

/-- A tip id of the table (R72). -/
abbrev isTip (t : Nat) : Prop := 1 ≤ t ∧ t ≤ 32

/-- A port of the rack (R76). -/
abbrev isPort (p : Nat) : Prop := p < 12

/-- R80, R82: what a session still to drop and to pick expects of the tables. -/
abbrev SessionReady (s : State) (x : Arm) : Prop :=
  (((sessionOf s x).state = .waitZone ∨ (sessionOf s x).state = .drop) →
      mountedTip s x = (sessionOf s x).dropTip
        ∧ ∀ p ∈ (sessionOf s x).dropPort, isPort p ∧ portOf s p = .empty)
    ∧ ((sessionOf s x).state = .pick → mountedTip s x = none)
    ∧ (((sessionOf s x).state = .waitZone ∨ inStep (sessionOf s x) = true) →
      ∀ t ∈ (sessionOf s x).pickTip, ∀ p ∈ (sessionOf s x).pickPort,
        isTip t ∧ isPort p ∧ (tipOf s t).location = .port p)

/-- R81: two sessions that wait or work share no drop port and no pick tip. -/
abbrev SessionsApart (s : State) : Prop :=
  (sessionOf s .a).state ≠ .idle → (sessionOf s .b).state ≠ .idle →
    (∀ p ∈ (sessionOf s .a).dropPort, (sessionOf s .b).dropPort ≠ some p)
      ∧ (∀ t ∈ (sessionOf s .a).pickTip, (sessionOf s .b).pickTip ≠ some t)

/-- Whether a port agrees that it holds a tip whose location names it, and names no other (R73). -/
def portAgrees (s : State) (p : Nat) : Bool :=
  match portOf s p with
  | .holds t => decide (isTip t) && decide ((tipOf s t).location = .port p)
  | _ => true

/-- Whether a tip whose location is a port is the one the port holds (R73). -/
def tipAgrees (s : State) (t : Nat) : Bool :=
  match (tipOf s t).location with
  | .port p => decide (isPort p) && decide (portOf s p = .holds t)
  | _ => true

/-- R73: a port is HOLDS(t) exactly when tip t stands there, at most one tip is on each arm, and a tip that is not present
is ABSENT; R72: no two present tips carry the same non-zero code; and the sessions find what they expect. -/
abbrev TipsInPlace (s : State) : Prop :=
  (∀ p < 12, portAgrees s p = true) ∧ (∀ t < 33, isTip t → tipAgrees s t = true)
    ∧ (∀ x, ∀ t < 33, ∀ u < 33, isTip t → isTip u →
        (tipOf s t).location = .onArm x → (tipOf s u).location = .onArm x → t = u)
    ∧ (∀ t < 33, isTip t → (tipOf s t).present = false → (tipOf s t).location = .absent)
    ∧ (∀ t < 33, ∀ u < 33, isTip t → isTip u → (tipOf s t).present = true → (tipOf s u).present = true →
        (tipOf s t).code ≠ 0 → (tipOf s t).code = (tipOf s u).code → t = u)
    ∧ (∀ x, SessionReady s x) ∧ SessionsApart s

/-- A temperature lies within 10,000..50,000 m°C. -/
abbrev tempOk (t : Temperature) : Prop := 10000 ≤ t.value ∧ t.value ≤ 50000

/-- R40, R42: every aggregate and every applied temperature lies within 10,000..50,000 m°C. -/
abbrev TemperaturesInRange (s : State) : Prop :=
  (∀ g ∈ s.thu.aggregates, tempOk g.temp) ∧ (∀ x, ∀ t ∈ appliedTemps (s.thuOf x).applied, tempOk t)

/-- Every invariant of the block at once. -/
structure Orderly (s : State) : Prop where
  numbers      : NumbersBounded s
  records      : RecordsKept s
  suppressed   : SuppressedWithSession s
  rests        : RestsOutsideRun s
  fields       : SessionFieldsFit s
  banks        : BanksCanonical s
  sound        : BanksSound s
  holds        : HoldsStand s
  zones        : ZonesOrderly s
  tips         : TipsInPlace s
  temperatures : TemperaturesInRange s

end Sys2Proof.Machine
end

