-- ==== Sys2Proof/Certificates/Slice0/Obligations.lean ====
section
/-! DEFINITION. The statements for the provers. Hypotheses speak of the state and the operands alone; a conclusion
`exec c s = .next t` says that the command completes, and with the whole of `t` given it is also the command's frame. -/

open Sys2Proof Sys2Proof.Machine

/-! ## The machine -/

/-- The block takes the command at the front of its queue and leaves the rest waiting; on an empty queue a block with
nothing due idles (the second clause is the model's choice, log 2). -/
def Obligations.StepTakesFront : Prop :=
  (∀ (c : Instr) (rest : List Instr) (s : State),
    step { s with pending := c :: rest } = exec c { s with pending := rest })
    ∧ (∀ s : State, NothingDue s → s.pending = [] → step s = .next s)

/-- Every command answers a next state (the model's choice, for the spec names no stop: log 20), and none changes the queue of
the commands that wait. -/
def Obligations.CommandsKeepTheQueue : Prop :=
  ∀ (c : Instr) (s : State), ∃ t, exec c s = .next t ∧ t.pending = s.pending

/-! ## Invariants that every step keeps -/

/-- R24, R66, R141, R149, R165, R166: the stored numbers stay in their ranges; R40, R42: so do the aggregates and the
applied temperatures; R100, R33 to R37: an arm keeps one inside record per zone, and a channel has a filter state exactly
outside NO_DATA. -/
def Obligations.StepKeepsNumbersBounded : Prop :=
  (∀ s t : State, NumbersBounded s → step s = .next t → NumbersBounded t)
    ∧ (∀ s t : State, TemperaturesInRange s → step s = .next t → TemperaturesInRange t)
    ∧ (∀ s t : State, RecordsKept s → step s = .next t → RecordsKept t)

/-- R53: an arm's trigger is SUPPRESSED exactly when its change session is not IDLE. -/
def Obligations.StepKeepsSuppression : Prop :=
  ∀ s t : State, SuppressedWithSession s → step s = .next t → SuppressedWithSession t

/-- R54, R83, R92, R148: outside RUN no trigger is armed or latched, no session waits or works, no countdown runs. -/
def Obligations.StepKeepsRestsOutsideRun : Prop := ∀ s t : State, RestsOutsideRun s → step s = .next t → RestsOutsideRun t

/-- R80, R82, R84, R89: the fields of a session record fit its state. -/
def Obligations.StepKeepsSessionFields : Prop := ∀ s t : State, SessionFieldsFit s → step s = .next t → SessionFieldsFit t

/-- R119, R120: banks stay canonical and within their capacity, the banks in force among them (the ARM MAP banks and the
STATION RECORD; log 8, log 26), and an EMPTY staging bank holds no word. R126, R129, R130: an active bank and a PASSED staging
bank keep the content rules of their kind, those against the other kinds' active banks left out. -/
def Obligations.StepKeepsBanks : Prop :=
  (∀ s t : State, BanksCanonical s → step s = .next t → BanksCanonical t)
    ∧ (∀ s t : State, BanksSound s → step s = .next t → BanksSound t)

/-- R110, R144: MODE stands in CONFIG, RING during ring loss, and an address exactly outside UNADDRESSED. -/
def Obligations.StepKeepsHolds : Prop := ∀ s t : State, HoldsStand s → step s = .next t → HoldsStand t

/-- R80, R101, R102: at most one zone has a waiter, and each session has its place at zone 0. -/
def Obligations.StepKeepsZones : Prop :=
  ∀ s t : State, NumbersBounded s → ZonesOrderly s → step s = .next t → ZonesOrderly t

/-- R72, R73, R80: tips, ports and sessions agree on where every tip is. -/
def Obligations.StepKeepsTipsInPlace : Prop :=
  ∀ s t : State, NumbersBounded s → ZonesOrderly s → TipsInPlace s → step s = .next t → TipsInPlace t

/-- The invariants hold of the block right after power-on reset. -/
def Obligations.ResetMeetsInvariants : Prop :=
  Orderly State.reset

/-- R152, R120, R133, R142, R171 and the reset tables of 01 to 05: the values the spec gives the block after power-on reset. -/
def Obligations.ResetValues : Prop :=
  let s := State.reset
  s.riu.station = .unaddressed ∧ s.riu.address = none ∧ s.riu.clock = 0 ∧ s.riu.clockAtAlign = 0 ∧ s.riu.frameAtAlign = 0
    ∧ s.riu.inFlight = none ∧ s.riu.missed = 0 ∧ s.riu.deadline = none ∧ s.riu.ringLoss = false ∧ s.riu.turned = 0
    ∧ s.riu.record = none
    ∧ (∀ k, s.tbsOf k = ⟨[], .empty, none, 0, none⟩)
    ∧ (∀ x, (s.cenOf x).history = [] ∧ (s.cenOf x).satSeen = false ∧ (s.cenOf x).rangeSeen = false
        ∧ (s.cenOf x).reader = false ∧ (s.cenOf x).limit = 0)
    ∧ s.thu.channels = List.replicate 24 ⟨.noData, none, 0, none, none⟩
    ∧ s.thu.aggregates = List.replicate 8 ⟨⟨20000, true, false⟩, false⟩
    ∧ (∀ x, appliedTemps (s.thuOf x).applied = List.replicate 5 ⟨20000, true, false⟩ ∧ (s.thuOf x).applied.epoch = 0
        ∧ (s.thuOf x).countdown = none ∧ (s.thuOf x).deferred = false)
    ∧ (∀ x, triggerOf s x = .disarmed ∧ (s.tcuOf x).nextSeq = 0 ∧ (s.tcuOf x).bracketOpen = false
        ∧ (s.tcuOf x).feature = 0)
    ∧ s.tcu.queue = [] ∧ s.tcu.workpiece = ⟨⟨0, 0, 0⟩, 0, false⟩
    ∧ s.pcc.tips = List.replicate 32 ⟨false, ⟨0, 0, 0⟩, 0, 0, 0, 0, 0, .absent⟩
    ∧ s.pcc.ports = List.replicate 12 .disabled ∧ s.pcc.occupancy = none
    ∧ (∀ x, sessionOf s x = ⟨.idle, none, none, none, none, none, none⟩ ∧ (s.pccOf x).consistent = true
        ∧ (s.pccOf x).headLast = none ∧ (s.pccOf x).codeLast = 0)
    ∧ s.mgd.zones = List.replicate 8 .free ∧ (∀ x, s.mgdOf x = ⟨List.replicate 8 .unknown, 0, 0, 0⟩)
    ∧ s.evu.sources.map (·.priority) = [7, 7, 7, 7, 7, 7, 5, 5, 4, 4, 6, 2, 3, 3, 4, 1, 7]
    ∧ (∀ q ∈ s.evu.sources, q.detail = none ∧ q.overrun = false) ∧ s.evu.reportLevel = 0 ∧ s.pending = []

/-! ## Station requests -/

/-- R147, R148, R159: STATION_MODE naming RUN, CONFIG, and neither, with all that the transitions change and keep. That the
station state named is bits 0 to 7 of word 0 is the model's choice (log 11), and so is what becomes of a countdown at 0 whose expiry
has not been taken: it stops, and the expiry takes no advance and leaves no mark (log 37). -/
def Obligations.StationModeTransitions : Prop :=
  ∀ (s : State) (w : Word), InService s →
    let v := w.toNat % 256
    let answers (r : Result) (code : Word) (t : State) : Prop :=
      exec (.stationMode w) s = .next (withReply 0x01 ⟨r, [code]⟩ t)
    (v ≠ 1 → v ≠ 2 → answers .badParam (match s.riu.station with
        | .run => 2
        | _ => 1) s)
    ∧ (v = 2 → s.riu.station = .run → answers .done 2 s)
    ∧ (v = 2 → s.riu.station = .config → (activeBank .slotMap s = none ∨ activeBank .stationRecord s = none) →
        answers .notReady 1 s)
    ∧ (v = 2 → s.riu.station = .config → activeBank .slotMap s ≠ none → activeBank .stationRecord s ≠ none →
        answers .done 2 { s with
          riu := { s.riu with station := .run },
          thu := { s.thu with arm := s.thu.arm.both (fun t =>
            if t.deferred then t else { t with countdown := loadedCountdown s }) } })
    ∧ (v = 1 → s.riu.station = .config → answers .done 1 s)
    ∧ (v = 1 → s.riu.station = .run → (∃ x, armLatched s x = true ∨ inStep (sessionOf s x) = true) → answers .busy 2 s)
    ∧ (v = 1 → s.riu.station = .run → (∀ x, armLatched s x = false ∧ inStep (sessionOf s x) = false) →
        let waiting (x : Arm) : Bool := decide ((sessionOf s x).state = .waitZone)
        ∃ t, answers .done 1 t
          ∧ t.riu = { s.riu with station := .config }
          ∧ (∀ x, t.tcuOf x = { s.tcuOf x with trigger := match triggerOf s x with
              | .armed => .disarmed
              | .rearm _ => .disarmed
              | .suppressed => if waiting x then .disarmed else .suppressed
              | other => other })
          ∧ (∀ x, t.pccOf x = if waiting x then { s.pccOf x with session := Session.idle, changeDue := false } else s.pccOf x)
          ∧ (∀ x, t.thuOf x = { s.thuOf x with countdown := none })
          ∧ (∀ x, t.mgdOf x = { s.mgdOf x with causes := addCause (s.mgdOf x).causes .mode })
          ∧ t.mgd.zones = s.mgd.zones.set 0 (match zoneOf s 0 with
              | .held h r w => .held h r (w && !waiting (otherArm h))
              | .free => .free)
          ∧ t = { s with
              riu := t.riu, tcu := { s.tcu with arm := t.tcu.arm }, pcc := { s.pcc with arm := t.pcc.arm },
              thu := { s.thu with arm := t.thu.arm }, mgd := t.mgd })

/-- R153, R160, R171, R120, R96: STATION_RESET takes a warm reset and is always DONE; the tip and the port of a step it
interrupts become unknown, and no other tip or port changes. That it also takes down the marks by which the latest return
pass left steps due is the model's choice (log 32); the STATION RECORD and the ARM MAPs in force stay (log 26, log 8). -/
def Obligations.StationResetIsWarmReset : Prop :=
  ∀ s : State, InService s → NumbersBounded s → ∃ t, exec .stationReset s = .next t
    ∧ t.rqu = (withReply 0x02 ⟨.done, []⟩ s).rqu
    ∧ t.riu = { s.riu with
        station := .config, missed := 0, ringLoss := false,
        deadline := if (stationRecord s).isSome then some (clockAfter s.riu.clockAtAlign (3 * periodNs s / 2)) else none }
    ∧ (∀ k, t.tbsOf k = { s.tbsOf k with
        state := match (s.tbsOf k).state with
          | .checking _ _ _ => .unchecked
          | other => other })
    ∧ (∀ x, t.cenOf x = { CenArm.reset with inForce := (s.cenOf x).inForce })
    ∧ t.thu = Thu.reset ∧ t.tcu = { Tcu.reset with workpiece := s.tcu.workpiece }
    ∧ (∀ x, t.pccOf x = { s.pccOf x with session := Session.idle, consistent := true, changeDue := false })
    ∧ t.pcc.occupancy = s.pcc.occupancy
    ∧ ((∀ x, inStep (sessionOf s x) = false) → t.pcc.tips = s.pcc.tips ∧ t.pcc.ports = s.pcc.ports)
    ∧ (∀ x tip port, isTip tip → port < 12 → inStep (sessionOf s (otherArm x)) = false →
        (((sessionOf s x).state = .drop ∧ (sessionOf s x).dropTip = some tip ∧ (sessionOf s x).dropPort = some port)
          ∨ ((sessionOf s x).state = .pick ∧ (sessionOf s x).pickTip = some tip ∧ (sessionOf s x).pickPort = some port)) →
        tipOf t tip = { tipOf s tip with location := .unknown } ∧ portOf t port = .unverified
          ∧ (∀ u, isTip u → u ≠ tip → tipOf t u = tipOf s u) ∧ (∀ p ≠ port, portOf t p = portOf s p))
    ∧ t.mgd.zones = List.replicate 8 .free
    ∧ (∀ x, t.mgdOf x = { MgdArm.reset with causes := causeOnly .mode })
    ∧ t.evu = { s.evu with sources := s.evu.sources.map (fun q => { q with detail := none, overrun := false }) }
    ∧ t.pending = s.pending

/-- R161, R162, R163, 10.5: a STATUS_READ answers exactly the page parts the spec names and changes nothing; the words of the
STATION, ARM, CHANNELS, TIPS, PORTS, ZONES, EVENTS and TABLES pages show the state. Where an item is absent (no tip, no port,
no deadline, no timer, a head never read, no detail, no result) the code shown is log 13's reading of 10.2 and 10.5. -/
def Obligations.StatusReadShowsState : Prop :=
  ∀ s : State, InService s → NumbersBounded s →
    let shows (page sel part : Byte) (P : List Word → Prop) : Prop :=
      ∃ ws, exec (.statusRead page sel part) s = .next (withReply 0x03 ⟨.done, ws⟩ s) ∧ P ws
    (∀ page sel part : Byte,
      let n := sel.toNat
      let named := page = 1 ∨ (page = 2 ∧ n ≤ 1 ∧ part.toNat ≤ 1) ∨ (page = 3 ∧ n ≤ 6) ∨ (page = 4 ∧ 1 ≤ n ∧ n ≤ 32)
        ∨ page = 5 ∨ page = 6 ∨ (page = 7 ∧ n ≤ 16) ∨ (page = 8 ∧ 1 ≤ n ∧ n ≤ 6)
      (named → shows page sel part (fun _ => True))
      ∧ (¬ named → exec (.statusRead page sel part) s = .next (withReply 0x03 ⟨.badParam, []⟩ s)))
    ∧ (∀ sel part : Byte, shows 1 sel part (StationWords s))
    ∧ (∀ x : Arm, shows 2 (armByte x) 0 (ArmWords0 s x) ∧ shows 2 (armByte x) 1 (ArmWords1 s x))
    ∧ (∀ p part : Byte, p.toNat < 6 → shows 3 p part (fun ws => ws.length = 12 ∧
        ∀ i < 4, ∀ c, s.thu.channels[4 * p.toNat + i]? = some c →
          ChannelWords c (wordAt ws (3 * i)) (wordAt ws (3 * i + 1)) (wordAt ws (3 * i + 2))))
    ∧ (∀ part : Byte, shows 3 6 part (fun ws => ws.length = 8 ∧ ∀ i g, s.thu.aggregates[i]? = some g →
        ShowsTemp (wordAt ws i) g.temp ∧ (wordAt ws i).getLsbD 26 = g.everFresh ∧ (wordAt ws i).extractLsb' 27 5 = 0))
    ∧ (∀ first part : Byte, isTip first.toNat → shows 4 first part (fun ws => ws.length = 14
        ∧ TipWords (tipOf s first.toNat) (ws.take 7)
        ∧ (first ≠ 32 → TipWords (tipOf s (first.toNat + 1)) (ws.drop 7))
        ∧ (first = 32 → ws.drop 7 = List.replicate 7 0)))
    ∧ (∀ sel part : Byte, shows 5 sel part (fun ws => ws.length = 12 ∧ ∀ p < 12, PortWord s p (wordAt ws p)))
    ∧ (∀ sel part : Byte, RecordsKept s → shows 6 sel part (fun ws => ws.length = 10
        ∧ (∀ z < 8, ZoneWord s z (wordAt ws z))
        ∧ ∀ x, (wordAt ws (8 + armCode x)).extractLsb' 16 16 = 0 ∧ ∀ z < 8,
            (wordAt ws (8 + armCode x)).extractLsb' (2 * z) 2 = (match insideOf s x z with
              | .outside => 0
              | .inside => 1
              | .unknown => 2)))
    ∧ (∀ sel part : Byte, sel.toNat ≤ 16 → shows 7 sel part (EventsWords s sel.toNat))
    ∧ (∀ (k : TableKind) (part : Byte), shows 8 (kindByte k) part (TablesWords (s.tbsOf k)))

/-! ## Table requests -/

/-- R121: TABLE_WRITE. -/
def Obligations.TableWriteWritesWords : Prop :=
  ∀ (s : State) (kind count : Byte) (offset : BitVec 16) (words : ParamWords), InService s →
    (kindOf kind = none → exec (.tableWrite kind count offset words) s = .next (withReply 0x10 ⟨.badParam, []⟩ s))
    ∧ ∀ k, kindOf kind = some k →
      let n := count.toNat
      let o := offset.toNat
      (¬ (1 ≤ n ∧ n ≤ 6 ∧ o + n ≤ capacity k) →
        exec (.tableWrite kind count offset words) s = .next (withReply 0x10 ⟨.badParam, []⟩ s))
      ∧ (1 ≤ n → n ≤ 6 → o + n ≤ capacity k → isChecking (s.tbsOf k).state = true →
        exec (.tableWrite kind count offset words) s = .next (withReply 0x10 ⟨.busy, []⟩ s))
      ∧ (1 ≤ n → n ≤ 6 → o + n ≤ capacity k → isChecking (s.tbsOf k).state = false →
        Memory.wf (s.tbsOf k).staging = true →
        ∃ b, exec (.tableWrite kind count offset words) s = .next (withReply 0x10 ⟨.done, []⟩
            (s.onTbs k (fun t => { t with staging := b, state := .unchecked })))
          ∧ ∀ a, Memory.read b a =
              if o ≤ a ∧ a < o + n then (paramList words).getD (a - o) 0 else Memory.read (s.tbsOf k).staging a)

/-- R122, R123, R124: TABLE_CLEAR makes every word of the staging bank zero and an EMPTY bank stays as it is; TABLE_CHECK
starts a check of all the words of the bank. -/
def Obligations.TableClearAndCheck : Prop :=
  ∀ (s : State) (kind : Byte) (sum : Word), InService s →
    (kindOf kind = none →
      exec (.tableClear kind) s = .next (withReply 0x11 ⟨.badParam, []⟩ s)
        ∧ exec (.tableCheck kind sum) s = .next (withReply 0x12 ⟨.badParam, []⟩ s))
    ∧ ∀ k, kindOf kind = some k →
      (isChecking (s.tbsOf k).state = true →
        exec (.tableClear kind) s = .next (withReply 0x11 ⟨.busy, []⟩ s)
          ∧ exec (.tableCheck kind sum) s = .next (withReply 0x12 ⟨.busy, []⟩ s))
      ∧ (isChecking (s.tbsOf k).state = false →
        ∃ t, exec (.tableClear kind) s = .next (withReply 0x11 ⟨.done, []⟩ t)
          ∧ (∀ a, Memory.read (t.tbsOf k).staging a = 0) ∧ (t.tbsOf k).state = .empty
          ∧ t = s.onTbs k (fun r => { r with staging := (t.tbsOf k).staging, state := .empty }))
      ∧ ((s.tbsOf k).state = .empty → BanksCanonical s →
        exec (.tableClear kind) s = .next (withReply 0x11 ⟨.done, []⟩ s))
      ∧ ((s.tbsOf k).state = .empty → exec (.tableCheck kind sum) s = .next (withReply 0x12 ⟨.wrongState, []⟩ s))
      ∧ ((s.tbsOf k).state ≠ .empty → isChecking (s.tbsOf k).state = false →
        exec (.tableCheck kind sum) s = .next (withReply 0x12 ⟨.accepted, []⟩
          (s.onTbs k (fun t => { t with state := .checking sum (capacity k) true }))))

/-- R130: the refusals of TABLE_ACTIVATE, and the cross test's (R132): where the slots of the one bank meet the window of the
other. That the offset is the offset word of the first such entry of a SLOT MAP, and word 0 of a STATION RECORD, is the model's
reading of R126 (log 12). -/
def Obligations.TableActivateRefusals : Prop :=
  ∀ (s : State) (k : TableKind), InService s →
    ((s.tbsOf k).state ≠ .passed → exec (.tableActivate (kindByte k)) s = .next (withReply 0x13 ⟨.notReady, []⟩ s))
    ∧ ((s.tbsOf k).state = .passed → (k = .slotMap ∨ k = .stationRecord) → s.riu.station = .run →
        exec (.tableActivate (kindByte k)) s = .next (withReply 0x13 ⟨.wrongState, []⟩ s))
    ∧ (∀ x, k = .armMap x → (s.tbsOf k).state = .passed →
        ((s.tcuOf x).bracketOpen = true ∨ armLatched s x = true ∨ (sessionOf s x).state ≠ .idle) →
        exec (.tableActivate (kindByte k)) s = .next (withReply 0x13 ⟨.busy, []⟩ s))
    ∧ (k = .zoneTable → (s.tbsOf k).state = .passed → (∃ z < 8, zoneOf s z ≠ .free) →
        exec (.tableActivate (kindByte k)) s = .next (withReply 0x13 ⟨.busy, []⟩ s))
    ∧ (∀ o, crossMet k s o → (s.tbsOf k).state = .passed → s.riu.station = .config →
        exec (.tableActivate (kindByte k)) s = .next (withReply 0x13 ⟨.notReady, []⟩
          (post .table (.check k (.failedContent o))
            (s.onTbs k (fun t => { t with state := .failed, lastResult := some (.failedContent o) })))))

/-- R131, R133, R65: an activation that passes its checks swaps the banks, counts the generation and posts TABLE; what it does
at once to the blocks that use the kind, and nothing else. -/
def Obligations.TableActivateSwapsBanks : Prop :=
  ∀ (s : State) (k : TableKind), InService s → (s.tbsOf k).state = .passed →
    ((k = .slotMap ∨ k = .stationRecord) → s.riu.station = .config) → (∀ o, ¬ crossMet k s o) →
    (∀ x, k = .armMap x →
      (s.tcuOf x).bracketOpen = false ∧ armLatched s x = false ∧ (sessionOf s x).state = .idle) →
    (k = .zoneTable → ∀ z < 8, zoneOf s z = .free) →
    let g := (s.tbsOf k).generation + 1
    ∃ t, exec (.tableActivate (kindByte k)) s = .next (withReply 0x13 ⟨.done, [g.setWidth 32]⟩ t)
      ∧ t.tbs = (s.onTbs k (fun r => { r with
          staging := r.active.getD [], state := if r.active.isSome then .passed else .empty,
          active := some r.staging, generation := g })).tbs
      ∧ t.evu = (post .table (.activated k g) s).evu
      ∧ t.thu = (if k = .channelTable then { s.thu with restart := true } else s.thu)
      ∧ t.mgd.zones = s.mgd.zones
      ∧ (∀ x, t.mgdOf x = if k = .zoneTable then { s.mgdOf x with inside := List.replicate 8 .unknown } else s.mgdOf x)
      ∧ (∀ x, t.cenOf x = if k = .armMap x then { s.cenOf x with history := [], satSeen := false, rangeSeen := false }
          else s.cenOf x)
      ∧ (∀ x, t.tcuOf x = { s.tcuOf x with
          touchDue := if k = .armMap x ∧ (s.tcuOf x).touchDue = .resolve then .none else (s.tcuOf x).touchDue })
      ∧ t.tcu = { s.tcu with arm := t.tcu.arm }
      ∧ (k ≠ .stationRecord ∨ s.riu.deadline ≠ none → t.riu = s.riu)
      ∧ (k = .stationRecord → s.riu.deadline = none →
          t.riu = { s.riu with deadline := some (clockAfter s.riu.clockAtAlign
            (3 * (1000 * wordNat (s.tbsOf k).staging 1) / 2)) })
      ∧ t.pcc = s.pcc ∧ t.rqu = s.rqu ∧ t.pending = s.pending

/-- R135: TABLE_READ. -/
def Obligations.TableReadReturnsSixWords : Prop :=
  ∀ (s : State) (kind bank : Byte) (offset : BitVec 16), InService s →
    let o := offset.toNat
    let six (k : TableKind) (b : Bank) : List Word :=
      (List.range 6).map (fun i => if o + i < capacity k then Memory.read b (o + i) else 0)
    (kindOf kind = none → exec (.tableRead kind bank offset) s = .next (withReply 0x14 ⟨.badParam, []⟩ s))
    ∧ ∀ k, kindOf kind = some k →
      ((capacity k ≤ o ∨ 1 < bank.toNat) →
        exec (.tableRead kind bank offset) s = .next (withReply 0x14 ⟨.badParam, []⟩ s))
      ∧ (o < capacity k → bank = 0 → (s.tbsOf k).active = none →
        exec (.tableRead kind bank offset) s = .next (withReply 0x14 ⟨.notReady, []⟩ s))
      ∧ (∀ b, (s.tbsOf k).active = some b → o < capacity k → bank = 0 →
        exec (.tableRead kind bank offset) s = .next (withReply 0x14 ⟨.done, six k b⟩ s))
      ∧ (o < capacity k → bank = 1 →
        exec (.tableRead kind bank offset) s = .next (withReply 0x14 ⟨.done, six k (s.tbsOf k).staging⟩ s))

/-! ## Tips and ports -/

/-- R74: TIP_SET writes the record of a tip that its checks let through; a field out of range, a code that another present
tip carries, and a tip mounted on an arm whose trigger is LATCHED refuse it. That radius and latency are the whole of words 3
and 4 is the model's choice (log 11). -/
def Obligations.TipSetWritesTheRecord : Prop :=
  ∀ (s : State) (tip : Byte) (f : ParamWords), InService s → NumbersBounded s →
    let t := tip.toNat
    let code : BitVec 16 := f.w5.extractLsb' 0 16
    let air : BitVec 16 := f.w5.extractLsb' 16 16
    let inRange := isTip t ∧ f.w3.toNat ≤ 10000000 ∧ f.w4.toNat ≤ 1000000 ∧ 10000 ≤ air.toNat ∧ air.toNat ≤ 50000
    let carried := code ≠ 0 ∧ ∃ u, isTip u ∧ u ≠ t ∧ (tipOf s u).present = true ∧ (tipOf s u).code = code
    let pinned := ∃ x, mountedTip s x = some t ∧ armLatched s x = true
    ((¬ inRange ∨ carried) → exec (.tipSet tip f) s = .next (withReply 0x20 ⟨.badParam, []⟩ s))
    ∧ (inRange → ¬ carried → pinned → exec (.tipSet tip f) s = .next (withReply 0x20 ⟨.busy, []⟩ s))
    ∧ (inRange → ¬ carried → ¬ pinned →
      exec (.tipSet tip f) s = .next (withReply 0x20 ⟨.done, [((tipOf s t).revision + 1).setWidth 32]⟩
        (onTip t (fun r =>
          { r with
            present := true, offset := ⟨f.w0.toInt, f.w1.toInt, f.w2.toInt⟩, radius := f.w3.toNat,
            latency := f.w4.toNat, code := code, airTemp := air.toNat, revision := r.revision + 1 }) s)))

/-- R75: TIP_REMOVE. -/
def Obligations.TipRemoveTakesTheTipOut : Prop :=
  ∀ (s : State) (tip : Byte), InService s →
    let t := tip.toNat
    (¬ isTip t → exec (.tipRemove tip) s = .next (withReply 0x21 ⟨.badParam, []⟩ s))
    ∧ (isTip t → (∃ p, (tipOf s t).location = .port p) ∨ (∃ x, (tipOf s t).location = .onArm x) →
      exec (.tipRemove tip) s = .next (withReply 0x21 ⟨.wrongState, []⟩ s))
    ∧ (isTip t → (tipOf s t).location = .absent ∨ (tipOf s t).location = .unknown →
      exec (.tipRemove tip) s = .next (withReply 0x21 ⟨.done, []⟩
        (onTip t (fun r => { r with present := false, location := .absent }) s)))

/-- R77, R170: PORT_SET on a port whose checks pass: the port's state, the locations of the tip set and of the tip that stood
there, the RACK source, and nothing else; HOLDS of a tip that is elsewhere, and a running session, refuse it. That the port
state and the tip are bits 0 to 7 of their words is the model's choice (log 11). -/
def Obligations.PortSetSetsThePort : Prop :=
  ∀ (s : State) (port : Byte) (state tip : Word), InService s → NumbersBounded s → TipsInPlace s →
    let p := port.toNat
    let v := state.toNat % 256
    let t := tip.toNat % 256
    let named := p < 12 ∧ (v = 0 ∨ v = 1 ∨ (v = 2 ∧ isTip t ∧ (tipOf s t).present = true))
    let idle := ∀ x, (sessionOf s x).state = .idle
    let free := v = 2 → (tipOf s t).location = .absent ∨ (tipOf s t).location = .unknown
      ∨ (tipOf s t).location = .port p
    (¬ named → exec (.portSet port state tip) s = .next (withReply 0x22 ⟨.badParam, []⟩ s))
    ∧ (named → ¬ idle → exec (.portSet port state tip) s = .next (withReply 0x22 ⟨.busy, []⟩ s))
    ∧ (named → idle → ¬ free → exec (.portSet port state tip) s = .next (withReply 0x22 ⟨.wrongState, []⟩ s))
    ∧ (named → idle → free →
      ∃ r, exec (.portSet port state tip) s = .next (withReply 0x22 ⟨.done, []⟩ r)
        ∧ portOf r p = (if v = 0 then .disabled else if v = 1 then .empty else .holds t)
        ∧ (∀ q ≠ p, portOf r q = portOf s q)
        ∧ (∀ u, isTip u → tipOf r u = { tipOf s u with
            location := if v = 2 ∧ u = t then .port p
              else if portOf s p = .holds u then .absent else (tipOf s u).location })
        ∧ r.evu = { s.evu with sources := s.evu.sources.modify 14 (fun q =>
            match q.detail with
            | some (.missing b _) => if b = p then { q with detail := none, overrun := false } else q
            | some (.occupied b) => if b = p then { q with detail := none, overrun := false } else q
            | _ => q) }
        ∧ r = { s with pcc := { s.pcc with tips := r.pcc.tips, ports := r.pcc.ports }, evu := r.evu })

/-- R78, R25: ARM_TIP_SET. That the tip is bits 0 to 7 of word 0 is the model's choice (log 11). -/
def Obligations.ArmTipSetMountsTheTip : Prop :=
  ∀ (s : State) (x : Arm) (tip : Word), InService s → NumbersBounded s →
    let t := tip.toNat % 256
    let known := t = 0 ∨ (isTip t ∧ (tipOf s t).present = true)
    let quiet := (sessionOf s x).state = .idle ∧ triggerOf s x = .disarmed
    let free := t = 0 ∨ (tipOf s t).location = .absent ∨ (tipOf s t).location = .unknown
    (¬ known → exec (.armTipSet (armByte x) tip) s = .next (withReply 0x23 ⟨.badParam, []⟩ s))
    ∧ (known → ¬ quiet → exec (.armTipSet (armByte x) tip) s = .next (withReply 0x23 ⟨.busy, []⟩ s))
    ∧ (known → quiet → ¬ free → exec (.armTipSet (armByte x) tip) s = .next (withReply 0x23 ⟨.wrongState, []⟩ s))
    ∧ (known → quiet → free →
      ∃ r, exec (.armTipSet (armByte x) tip) s = .next (withReply 0x23 ⟨.done, []⟩ r)
        ∧ (∀ u, isTip u → tipOf r u = { tipOf s u with
            location := if u = t then .onArm x else if mountedTip s x = some u then .absent else (tipOf s u).location })
        ∧ (r.cenOf x).history = [] ∧ (∀ y, triggerOf r y = triggerOf s y)
        ∧ r = { s with
            pcc := { s.pcc with tips := r.pcc.tips }, tcu := { s.tcu with arm := r.tcu.arm },
            cen := s.cen.modify x (fun c => { c with history := [] }) }
        ∧ (∀ y, r.tcuOf y = { s.tcuOf y with
            touchDue := if y = x ∧ (s.tcuOf y).touchDue = .resolve then .none else (s.tcuOf y).touchDue }))

/-! ## Triggers, features, the workpiece and the thermal sets -/

/-- R49 to R53: TRIGGER_ARM and TRIGGER_DISARM by trigger state. -/
def Obligations.TriggerRequestsByState : Prop :=
  ∀ (s : State) (x : Arm), InService s →
    (s.riu.station = .run → (activeBank (.armMap x) s = none ∨ mountedTip s x = none) →
      exec (.triggerArm (armByte x)) s = .next (withReply 0x30 ⟨.notReady, []⟩ s))
    ∧ (s.riu.station = .run → activeBank (.armMap x) s ≠ none → mountedTip s x ≠ none →
        ((sessionOf s x).state ≠ .idle ∨ triggerOf s x = .suppressed) →
        exec (.triggerArm (armByte x)) s = .next (withReply 0x30 ⟨.busy, []⟩ s))
    ∧ (s.riu.station = .run → activeBank (.armMap x) s ≠ none → mountedTip s x ≠ none →
        (sessionOf s x).state = .idle → triggerOf s x ≠ .suppressed →
        exec (.triggerArm (armByte x)) s = .next (withReply 0x30 ⟨.done, []⟩
          (s.onTcu x (fun u => { u with trigger := match u.trigger with
            | .disarmed => .armed
            | .latched l => .latched { l with disarmAfter := false }
            | other => other }))))
    ∧ (triggerOf s x = .suppressed → exec (.triggerDisarm (armByte x)) s = .next (withReply 0x31 ⟨.busy, []⟩ s))
    ∧ (∀ l, triggerOf s x = .latched l →
        exec (.triggerDisarm (armByte x)) s = .next (withReply 0x31 ⟨.accepted, []⟩
          (s.onTcu x (fun u => { u with trigger := .latched { l with disarmAfter := true } }))))
    ∧ (triggerOf s x ≠ .suppressed → armLatched s x = false →
        exec (.triggerDisarm (armByte x)) s = .next (withReply 0x31 ⟨.done, []⟩
          (s.onTcu x (fun u => { u with trigger := .disarmed }))))

/-- R68, R69, R46, R43: FEATURE_OPEN, and FEATURE_CLOSE with the owed advance it takes. -/
def Obligations.FeatureRequests : Prop :=
  ∀ (s : State) (x : Arm), InService s →
    let opened := s.onTcu x (fun u => { u with bracketOpen := true, feature := u.feature + 1 })
    let closed := s.onTcu x (fun u => { u with bracketOpen := false })
    (s.riu.station = .run → ((s.tcuOf x).bracketOpen = true ∨ (sessionOf s x).state ≠ .idle) →
      exec (.featureOpen (armByte x)) s = .next (withReply 0x32 ⟨.busy, []⟩ s))
    ∧ (s.riu.station = .run → (s.tcuOf x).bracketOpen = false → (sessionOf s x).state = .idle →
      exec (.featureOpen (armByte x)) s = .next
        (withReply 0x32 ⟨.done, [((s.tcuOf x).feature + 1).setWidth 32]⟩ opened))
    ∧ ((s.tcuOf x).bracketOpen = false → exec (.featureClose (armByte x)) s = .next (withReply 0x33 ⟨.done, []⟩ s))
    ∧ ((s.tcuOf x).bracketOpen = true → armLatched s x = true →
      exec (.featureClose (armByte x)) s = .next (withReply 0x33 ⟨.busy, []⟩ s))
    ∧ ((s.tcuOf x).bracketOpen = true → armLatched s x = false → (s.thuOf x).deferred = false →
      exec (.featureClose (armByte x)) s = .next (withReply 0x33 ⟨.done, []⟩ closed))
    ∧ ((s.tcuOf x).bracketOpen = true → armLatched s x = false → (s.thuOf x).deferred = true →
      exec (.featureClose (armByte x)) s = .next (withReply 0x33 ⟨.done, []⟩
        (closed.onThu x (fun t =>
          { applied := advancedSet s x, deferred := false,
            countdown := if s.riu.station = .run then loadedCountdown s else t.countdown }))))

/-- R71, R70: WORKPIECE_SET and WORKPIECE_CLEAR. That the coefficient is the whole of word 4 is the model's choice (log 11). -/
def Obligations.WorkpieceRequests : Prop :=
  ∀ (s : State) (f : ParamWords), InService s →
    let open_ := ∃ x, (s.tcuOf x).bracketOpen = true
    let bits := f.w0.toNat + 2 ^ 32 * (f.w1.toNat + 2 ^ 32 * (f.w2.toNat + 2 ^ 32 * f.w3.toNat))
    let origin : Vec3 :=
      ⟨(BitVec.ofNat 40 bits).toInt, (BitVec.ofNat 40 (bits / 2 ^ 40)).toInt, (BitVec.ofNat 40 (bits / 2 ^ 80)).toInt⟩
    (30000 < f.w4.toNat → exec (.workpieceSet f) s = .next (withReply 0x34 ⟨.badParam, []⟩ s))
    ∧ (f.w4.toNat ≤ 30000 → open_ → exec (.workpieceSet f) s = .next (withReply 0x34 ⟨.busy, []⟩ s))
    ∧ (f.w4.toNat ≤ 30000 → ¬ open_ → exec (.workpieceSet f) s = .next (withReply 0x34 ⟨.done, []⟩
        { s with tcu := { s.tcu with workpiece := ⟨origin, f.w4.toNat, true⟩ } }))
    ∧ (open_ → exec .workpieceClear s = .next (withReply 0x35 ⟨.busy, []⟩ s))
    ∧ (¬ open_ → exec .workpieceClear s = .next (withReply 0x35 ⟨.done, []⟩
        { s with tcu := { s.tcu with workpiece := { s.tcu.workpiece with valid := false } } }))

/-- R43, R44, R45: THERMAL_ADVANCE advances the arm's applied set and reloads its countdown; the expiry of the countdown does
the same with the bracket CLOSED and defers with the bracket OPEN; an expiry that is not due changes nothing (log 1). That an
advance at a countdown of 0, before its expiry is taken, reloads it is the model's choice (log 34). -/
def Obligations.ThermalAdvances : Prop :=
  ∀ (s : State) (x : Arm),
    let advanced := s.onThu x (fun t => { t with applied := advancedSet s x, countdown := loadedCountdown s })
    (InRun s → (s.tcuOf x).bracketOpen = true →
      exec (.thermalAdvance (armByte x)) s = .next (withReply 0x38 ⟨.busy, []⟩ s))
    ∧ (InRun s → (s.tcuOf x).bracketOpen = false →
      exec (.thermalAdvance (armByte x)) s = .next
        (withReply 0x38 ⟨.done, [((s.thuOf x).applied.epoch + 1).setWidth 32]⟩ advanced))
    ∧ ((s.thuOf x).countdown = some 0 → (s.tcuOf x).bracketOpen = false →
      exec (.autoAdvanceExpiry x) s = .next advanced)
    ∧ ((s.thuOf x).countdown = some 0 → (s.tcuOf x).bracketOpen = true →
      exec (.autoAdvanceExpiry x) s = .next (s.onThu x (fun t => { t with countdown := none, deferred := true })))
    ∧ ((s.thuOf x).countdown ≠ some 0 → exec (.autoAdvanceExpiry x) s = .next s)

/-! ## Zones and holds -/

/-- R102: ZONE_CLAIM, by the first row of its table that applies. -/
def Obligations.ZoneClaimByTable : Prop :=
  ∀ (s : State) (x : Arm) (zone : Byte), InRun s →
    let z := zone.toNat
    let y := otherArm x
    let claim := exec (.zoneClaim (armByte x) zone) s
    (8 ≤ z → claim = .next (withReply 0x40 ⟨.badParam, []⟩ s))
    ∧ (z < 8 → zoneOf s z = .free → claim = .next (withReply 0x40 ⟨.done, []⟩ (setZone z (.held x false false) s)))
    ∧ (∀ r w, z < 8 → zoneOf s z = .held x r w →
        claim = .next (withReply 0x40 ⟨.done, []⟩ (setZone z (.held x false w) s)))
    ∧ (∀ r, z < 8 → zoneOf s z = .held y r true → claim = .next (withReply 0x40 ⟨.accepted, []⟩ s))
    ∧ (∀ r, z < 8 → zoneOf s z = .held y r false → (∃ v < 8, waitsOn s x v = true) →
        claim = .next (withReply 0x40 ⟨.busy, []⟩ s))
    ∧ (∀ r, z < 8 → zoneOf s z = .held y r false → (∀ v < 8, waitsOn s x v = false) →
        (∃ v < 8, waitsOn s y v = true) → claim = .next (withReply 0x40 ⟨.deadlock, []⟩ s))
    ∧ (∀ r, z < 8 → zoneOf s z = .held y r false → (∀ v < 8, waitsOn s x v = false) →
        (∀ v < 8, waitsOn s y v = false) →
        claim = .next (withReply 0x40 ⟨.accepted, []⟩ (setZone z (.held y r true) s)))

/-- R92, R103, R104, R105: ZONE_RELEASE by the holder, by the waiter and by neither. -/
def Obligations.ZoneReleaseByTable : Prop :=
  ∀ (s : State) (x : Arm) (zone : Byte), InService s →
    let z := zone.toNat
    let y := otherArm x
    let release := exec (.zoneRelease (armByte x) zone) s
    (8 ≤ z → release = .next (withReply 0x41 ⟨.badParam, []⟩ s))
    ∧ (z = 0 → (sessionOf s x).state ≠ .idle → release = .next (withReply 0x41 ⟨.busy, []⟩ s))
    ∧ (z < 8 → (z = 0 → (sessionOf s x).state = .idle) →
        (zoneOf s z = .free → release = .next (withReply 0x41 ⟨.badParam, []⟩ s))
        ∧ (∀ r, zoneOf s z = .held y r false → release = .next (withReply 0x41 ⟨.badParam, []⟩ s))
        ∧ (∀ r, zoneOf s z = .held y r true →
            release = .next (withReply 0x41 ⟨.done, []⟩ (setZone z (.held y r false) s)))
        ∧ (∀ w, zoneOf s z = .held x true w → release = .next (withReply 0x41 ⟨.accepted, []⟩ s))
        ∧ (∀ w, zoneOf s z = .held x false w → insideOf s x z ≠ .outside →
            release = .next (withReply 0x41 ⟨.accepted, []⟩ (setZone z (.held x true w) s)))
        ∧ (zoneOf s z = .held x false false → insideOf s x z = .outside →
            release = .next (withReply 0x41 ⟨.done, []⟩ (setZone z .free s)))
        ∧ (zoneOf s z = .held x false true → insideOf s x z = .outside →
            (z = 0 → (sessionOf s y).state ≠ .waitZone) →
            release = .next (withReply 0x41 ⟨.done, []⟩
              (post (.zone y) (.granted z) (setZone z (.held y false false) (post (.zone x) (.released z) s)))))
        ∧ (zoneOf s z = .held x false true → insideOf s x z = .outside → z = 0 → (sessionOf s y).state = .waitZone →
            release = .next (withReply 0x41 ⟨.done, []⟩
              (onSession y (fun c => { c with
                  state := if c.dropTip.isSome then .drop else .pick, timer := some (stationField (·.stepTimeout) s) })
                (post (.zone y) (.granted z) (setZone z (.held y false false) (post (.zone x) (.released z) s)))))))

/-- R115, R116, R117, R21: HOLD_RELEASE removes each cause whose condition allows it, moves INTRUSION and LIMIT to creep under
the recover flag, clears the sticky flags, and replies with the sets it leaves. That the recover flag is bits 0 to 7 of word 0
is the model's choice (log 11). -/
def Obligations.HoldReleaseRemovesCauses : Prop :=
  ∀ (s : State) (x : Arm) (recover : Word), InService s →
    let g := s.mgdOf x
    let flag := recover.toNat % 256
    let allowed : Cause → Bool := fun c =>
      match c with
      | .mode => decide (s.riu.station = .run)
      | .ring => !s.riu.ringLoss
      | .reader => !(s.cenOf x).reader
      | .intrusion => decide (g.latches = 0) || decide (flag = 1)
      | .limit => decide ((s.cenOf x).limit = 0) || decide (flag = 1)
      | .head => (s.pccOf x).consistent
      | .change => decide ((sessionOf s x).state ≠ .fault)
      | _ => true
    (1 < flag → exec (.holdRelease (armByte x) recover) s = .next (withReply 0x42 ⟨.badParam, []⟩ s))
    ∧ (flag ≤ 1 → ∃ causes creep,
        exec (.holdRelease (armByte x) recover) s = .next
          (withReply 0x42 ⟨if causes = 0 then .done else .refused, [causes.setWidth 32, creep.setWidth 32]⟩
            ((s.onMgd x (fun m => { m with causes := causes, creep := creep })).onCen x
              (fun c => { c with satSeen := false, rangeSeen := false })))
        ∧ (∀ c, hasCause causes c = (hasCause g.causes c && !allowed c))
        ∧ (∀ z < 8, creep.getLsbD z =
            (g.creep.getLsbD z || (decide (flag = 1) && hasCause g.causes .intrusion && g.latches.getLsbD z)))
        ∧ hasCreepLimit creep = (hasCreepLimit g.creep
            || (decide (flag = 1) && hasCause g.causes .limit && decide ((s.cenOf x).limit ≠ 0))))

/-! ## Change sessions -/

/-- R81, R82, R84: CHANGE_BEGIN. The first check that fails gives the reply and nothing changes; otherwise the session record
is filled, the trigger SUPPRESSED, the head consistent, and zone 0 claimed, with which the session enters its first step. That
the drop port and the pick tip are bits 0 to 7 of their words is the model's choice (log 11). -/
def Obligations.ChangeBeginStartsTheSession : Prop :=
  ∀ (s : State) (x : Arm) (drop pick : Word), InRun s →
    let y := otherArm x
    let d := if drop.toNat % 256 = 255 then none else some (drop.toNat % 256)
    let e := if pick.toNat % 256 = 0 then none else some (pick.toNat % 256)
    let other := sessionOf s y
    let begin_ := exec (.changeBegin (armByte x) drop pick) s
    let refused (r : Result) : Prop := begin_ = .next (withReply 0x48 ⟨r, []⟩ s)
    let inRange := (∀ p ∈ d, isPort p) ∧ (∀ u ∈ e, isTip u)
    let ready := (sessionOf s x).state = .idle ∧ (s.tcuOf x).bracketOpen = false ∧ armLatched s x = false
    let dropFits := (mountedTip s x = none ∧ d = none) ∨ (mountedTip s x ≠ none ∧ ∃ p ∈ d, portOf s p = .empty)
    let pickFits := ∀ u ∈ e, (tipOf s u).present = true ∧ ∃ p, (tipOf s u).location = .port p ∧ portOf s p = .holds u
    let clash := other.state ≠ .idle ∧ ((d ≠ none ∧ other.dropPort = d) ∨ (e ≠ none ∧ other.pickTip = e))
    let passed := inRange ∧ ready ∧ dropFits ∧ pickFits ∧ ¬ clash ∧ ¬ (d = none ∧ e = none)
    let waiting (arm : Arm) := ∃ v < 8, waitsOn s arm v = true
    (¬ inRange → refused .badParam) ∧ (inRange → ¬ ready → refused .busy)
    ∧ (inRange → ready → ¬ (dropFits ∧ pickFits) → refused .badParam)
    ∧ (inRange → ready → dropFits → pickFits → clash → refused .busy)
    ∧ (inRange → ready → dropFits → pickFits → ¬ clash → d = none → e = none → refused .badParam)
    ∧ (∀ r, passed → zoneOf s 0 = .held y r false → waiting x → refused .busy)
    ∧ (∀ r, passed → zoneOf s 0 = .held y r false → ¬ waiting x → waiting y → refused .deadlock)
    ∧ (∀ q, passed → ((e = none ∧ q = none) ∨ ∃ u p, e = some u ∧ q = some p ∧ (tipOf s u).location = .port p) →
        let record (state : SessionState) (timer : Option Nat) : Session :=
          ⟨state, mountedTip s x, d, e, q, timer, none⟩
        let begun (c : Session) : State :=
          (s.onPcc x (fun p => { p with session := c, consistent := true })).onTcu x
            (fun u => { u with trigger := .suppressed })
        let accepted (t : State) : Prop := begin_ = .next (withReply 0x48 ⟨.accepted, []⟩ t)
        let stepping := begun (record (if (mountedTip s x).isSome then .drop else .pick)
          (some (stationField (·.stepTimeout) s)))
        (zoneOf s 0 = .free → accepted (setZone 0 (.held x false false) stepping))
        ∧ (∀ r w, zoneOf s 0 = .held x r w → accepted (setZone 0 (.held x false w) stepping))
        ∧ (∀ r w, zoneOf s 0 = .held y r w → (w = true ∨ (¬ waiting x ∧ ¬ waiting y)) →
            accepted (setZone 0 (.held y r true) (begun (record .waitZone none)))))

/-- R91, R83, R104: CHANGE_ABORT by session state. -/
def Obligations.ChangeAbortEndsTheSession : Prop :=
  ∀ (s : State) (x : Arm), InService s →
    let c := sessionOf s x
    let done (t : State) : Prop := exec (.changeAbort (armByte x)) s = .next (withReply 0x49 ⟨.done, []⟩ t)
    (c.state = .idle → done s)
    ∧ (∀ r w, c.state = .waitZone → zoneOf s 0 = .held (otherArm x) r w →
        done (post (.change x) (.aborted .waitZone) (sessionEnd x (setZone 0 (.held (otherArm x) r false) s))))
    ∧ (∀ w, c.state = .drop ∨ c.state = .pick ∨ c.state = .fault → zoneOf s 0 = .held x false w →
        done (sessionEnd x (sessionRelease x w (post (.change x) (.aborted c.state)
          (if c.state = .fault then s else raise x .abort s)))))

/-! ## Events -/

/-- R165, R166: EVENT_PRIORITY and REPORT_LEVEL. That the priority and the level are bits 0 to 7 of word 0 is the model's
choice (log 11). -/
def Obligations.EventRequests : Prop :=
  ∀ (s : State) (source : Byte) (w : Word), InService s → NumbersBounded s →
    let n := source.toNat
    let v := w.toNat % 256
    ((16 < n ∨ 7 < v) → exec (.eventPriority source w) s = .next (withReply 0x50 ⟨.badParam, []⟩ s))
    ∧ (n ≤ 16 → v ≤ 7 → ∃ q, s.evu.sources[n]? = some q
        ∧ exec (.eventPriority source w) s = .next (withReply 0x50 ⟨.done, [BitVec.ofNat 32 q.priority, BitVec.ofNat 32 v]⟩
            { s with evu := { s.evu with sources := s.evu.sources.set n { q with priority := v } } }))
    ∧ (7 < v → exec (.reportLevel w) s = .next (withReply 0x51 ⟨.badParam, []⟩ s))
    ∧ (v ≤ 7 → exec (.reportLevel w) s = .next
        (withReply 0x51 ⟨.done, [BitVec.ofNat 32 s.evu.reportLevel, BitVec.ofNat 32 v]⟩
          { s with evu := { s.evu with reportLevel := v } }))

/-- R146, R152: no request reaches a block in UNADDRESSED and during power-on reset. R157: CONFIG refuses five codes with
WRONG_STATE. R156, R173: a target that names no arm, or no table kind, is refused with BAD_PARAM. -/
def Obligations.RequestsTurnedAway : Prop :=
  (∀ (c : Instr) (s : State), isRequest c = true → (s.riu.inReset = true ∨ s.riu.station = .unaddressed) →
      exec c s = .next s)
  ∧ (∀ (s : State) (v z : Byte) (d e : Word), s.riu.inReset = false → s.riu.station = .config →
      exec (.triggerArm v) s = .next (withReply 0x30 ⟨.wrongState, []⟩ s)
        ∧ exec (.featureOpen v) s = .next (withReply 0x32 ⟨.wrongState, []⟩ s)
        ∧ exec (.thermalAdvance v) s = .next (withReply 0x38 ⟨.wrongState, []⟩ s)
        ∧ exec (.zoneClaim v z) s = .next (withReply 0x40 ⟨.wrongState, []⟩ s)
        ∧ exec (.changeBegin v d e) s = .next (withReply 0x48 ⟨.wrongState, []⟩ s))
  ∧ (∀ (s : State) (v z : Byte) (d e : Word), InRun s → 1 < v.toNat →
      exec (.triggerArm v) s = .next (withReply 0x30 ⟨.badParam, []⟩ s)
        ∧ exec (.featureOpen v) s = .next (withReply 0x32 ⟨.badParam, []⟩ s)
        ∧ exec (.thermalAdvance v) s = .next (withReply 0x38 ⟨.badParam, []⟩ s)
        ∧ exec (.zoneClaim v z) s = .next (withReply 0x40 ⟨.badParam, []⟩ s)
        ∧ exec (.changeBegin v d e) s = .next (withReply 0x48 ⟨.badParam, []⟩ s))
  ∧ (∀ (s : State) (v z : Byte) (w : Word), InService s → 1 < v.toNat →
      exec (.armTipSet v w) s = .next (withReply 0x23 ⟨.badParam, []⟩ s)
        ∧ exec (.triggerDisarm v) s = .next (withReply 0x31 ⟨.badParam, []⟩ s)
        ∧ exec (.featureClose v) s = .next (withReply 0x33 ⟨.badParam, []⟩ s)
        ∧ exec (.zoneRelease v z) s = .next (withReply 0x41 ⟨.badParam, []⟩ s)
        ∧ exec (.holdRelease v w) s = .next (withReply 0x42 ⟨.badParam, []⟩ s)
        ∧ exec (.changeAbort v) s = .next (withReply 0x49 ⟨.badParam, []⟩ s))
  ∧ (∀ (s : State) (v : Byte), InService s → (v = 0 ∨ 6 < v.toNat) →
      exec (.tableActivate v) s = .next (withReply 0x13 ⟨.badParam, []⟩ s))

/-! ## Steps that fall due -/

/-- R67: POINT_DRAIN takes up to N records from the head of the queue and writes them into the first point slots, field by
field as 10.3 places them; a queue with none due is left alone (log 1). -/
def Obligations.PointDrainEmptiesTheHead : Prop :=
  ∀ s : State,
    (s.tcu.drainDue = none → exec .pointDrain s = .next s)
    ∧ ∀ w, s.tcu.drainDue = some w →
      let n := stationField (·.pointSlots) s
      let drained := { s with tcu := { s.tcu with queue := s.tcu.queue.drop n, drainDue := none } }
      (s.riu.sent1 = none → exec .pointDrain s = .next drained)
      ∧ (∀ f, s.riu.sent1 = some f → Memory.wf f.frame.payload = true →
        ∃ m, exec .pointDrain s = .next { drained with riu := { s.riu with
              sent1 := some { f with frame := { f.frame with payload := m } } } }
          ∧ (∀ i < n, ∀ p, s.tcu.queue[i]? = some p →
              let o := w + 176 + 32 * i
              let ref := p.tip.getD ⟨0, 0⟩
              Memory.read m o = armByte p.arm ∧ Memory.read m (o + 1) = BitVec.ofNat 8 ref.id
                ∧ Memory.read m (o + 2) = ref.revision ∧ Memory.read m (o + 3) = p.feature
                ∧ Memory.readLE m (o + 4) 2 = p.seq.toNat ∧ Memory.readLE m (o + 6) 2 = p.epoch.toNat
                ∧ Memory.readLE m (o + 8) 2 = p.generation.toNat ∧ Memory.readLE m (o + 10) 2 = p.flags.toNat
                ∧ Memory.readLE m (o + 12) 8 = p.trg.toNat
                ∧ intAt m (o + 20) = (BitVec.ofInt 32 p.pos.x).toInt
                ∧ intAt m (o + 24) = (BitVec.ofInt 32 p.pos.y).toInt
                ∧ intAt m (o + 28) = (BitVec.ofInt 32 p.pos.z).toInt)
          ∧ (∀ a, (a < w + 176 ∨ w + 176 + 32 * min n s.tcu.queue.length ≤ a) →
              Memory.read m a = Memory.read f.frame.payload a))

/-- R55, R56, R59, R62, R64, R66: TOUCH_RESOLVE, bracketed and unbracketed; with no resolution due it leaves the block alone
(log 1). -/
def Obligations.TouchResolveBuildsThePoint : Prop :=
  ∀ (s : State) (x : Arm),
    ((s.tcuOf x).touchDue ≠ .resolve → exec (.touchResolve x) s = .next s)
    ∧ ∀ l b older, (s.tcuOf x).touchDue = .resolve → triggerOf s x = .latched l →
      (s.cenOf x).history = older ++ [b] →
      let before (e : HistoryEntry) : Prop := (e.capture.toNat : Int) ≤ l.contact
      (∀ newer a oldest, older = oldest ++ a :: newer → before a → (∀ e ∈ newer, ¬ before e) →
        let ta : Int := a.capture.toNat
        let tb : Int := b.capture.toNat
        let along (pa pb : Int) : Int :=
          if tb ≤ ta then pb else pa + roundDiv ((pb - pa) * (l.contact - ta)) (tb - ta).toNat
        ∃ t, exec (.touchResolve x) s = .next t
          ∧ TouchEnds s t x l ⟨along a.t.x b.t.x, along a.t.y b.t.y, along a.t.z b.t.z⟩ b [a, b] false
              (decide (2 * (1000 * stationField (·.period) s : Nat) < tb - ta)) false)
      ∧ ((∀ e ∈ older, ¬ before e) →
        ∃ t, exec (.touchResolve x) s = .next t ∧ TouchEnds s t x l b.t b [b] true false false)

/-- R57, R59: LATE_RESOLUTION, from the newest entry or, with an empty history, a point lost; with none due it leaves the block
alone (log 1). R51, R55, R57: what a return pass makes of a latch: due for resolution from an entry that has just been
appended and reaches its contact time; otherwise one pass older, and due late at the latch limit. -/
def Obligations.LateResolutionResolvesOrLoses : Prop :=
  ∀ (s : State) (x : Arm),
    ((s.tcuOf x).touchDue ≠ .late → exec (.lateResolution x) s = .next s)
    ∧ (∀ l, triggerOf s x = .latched l → (s.tcuOf x).touchDue = .late →
      (∀ e, (s.cenOf x).history.getLast? = some e →
        ∃ t, exec (.lateResolution x) s = .next t ∧ TouchEnds s t x l e.t e [e] false false true)
      ∧ (∀ m, armBank x s = some m → (s.cenOf x).history = [] →
        let lost := post .pointLost (.pointLost x l.seq .noPosition) s
        exec (.lateResolution x) s = .next
          ((if (Memory.read m 39).getLsbD 3 then raise x .pointLost lost else lost).onTcu x (fun u =>
            { u with trigger := if l.disarmAfter then .disarmed else .rearm (wordNat m 38), touchDue := .none }))))
    ∧ (∀ capture : Option (BitVec 64),
      let t := resolutionStep x capture s
      (∀ l c, triggerOf s x = .latched l → capture = some c → l.contact ≤ (c.toNat : Int) →
        t = s.onTcu x (fun u => { u with touchDue := .resolve }))
      ∧ (∀ l, triggerOf s x = .latched l → (∀ c ∈ capture, (c.toNat : Int) < l.contact) →
        t = s.onTcu x (fun u => { u with
          trigger := .latched { l with age := l.age + 1 },
          touchDue := if stationField (·.latchLimit) s ≤ l.age + 1 then .late else .none }))
      ∧ (armLatched s x = false → t = s.onTcu x (fun u => { u with touchDue := .none })))

/-- R52, R84, R89: REARM_EXPIRY and STEP_TIMEOUT; a countdown that has not reached 0 is left alone (log 1). -/
def Obligations.CountdownsExpire : Prop :=
  ∀ (s : State) (x : Arm),
    (triggerOf s x = .rearm 0 → exec (.rearmExpiry x) s = .next (s.onTcu x (fun u => { u with trigger := .armed })))
    ∧ (triggerOf s x ≠ .rearm 0 → exec (.rearmExpiry x) s = .next s)
    ∧ ((sessionOf s x).state = .drop ∨ (sessionOf s x).state = .pick → (sessionOf s x).timer = some 0 →
        exec (.stepTimeout x) s = .next
          (post (.change x) (.fault .timeout none none 0) (raise x .change (s.onPcc x (fun p =>
            { p with
              session := { p.session with state := .fault, timer := none, fault := some .timeout },
              changeDue := false })))))
    ∧ ((sessionOf s x).timer ≠ some 0 ∨ inStep (sessionOf s x) = false → exec (.stepTimeout x) s = .next s)

/-- R79, R85, R86: the readings of a pass that complete a session's step; R93: with no session, the supervision of the head by
them; R94: the comparison of the ports with their occupancy. R85, R88, R104: DROP_COMPLETE moves the tip into the port, and
the session on to its pick or to its end. R86: a completed pick matches when the code read is the expected tip's, or that
tip has code 0, and no other present tip carries the code. A step that is not due leaves the block alone (log 1). That a rack
reading's ports are compared in number order where the world names no order is the model's choice (log 5). -/
def Obligations.ChangeStepsComplete : Prop :=
  (∀ (s : State) (x : Arm),
    (((s.pccOf x).changeDue = false ∨ (sessionOf s x).state ≠ .drop) → exec (.dropComplete x) s = .next s)
    ∧ ∀ t p w, NumbersBounded s → TipsInPlace s → (s.pccOf x).changeDue = true → (sessionOf s x).state = .drop →
      (s.tcuOf x).touchDue ≠ .resolve →
      (sessionOf s x).dropTip = some t → (sessionOf s x).dropPort = some p → isTip t → zoneOf s 0 = .held x false w →
      let placed := (setPort p (.holds t) (onTip t (fun r => { r with location := .port p }) s)).onCen x
        (fun c => { c with history := [] })
      ((sessionOf s x).pickTip ≠ none →
        exec (.dropComplete x) s = .next (placed.onPcc x (fun q =>
          { q with
            session := { q.session with state := .pick, timer := some (stationField (·.stepTimeout) s) },
            changeDue := false })))
      ∧ ((sessionOf s x).pickTip = none →
        exec (.dropComplete x) s = .next
          (sessionEnd x (sessionRelease x w (post (.change x) (.done none) placed)))))
  ∧ (∀ (s : State) (x : Arm) (headLast : Bool),
    (((s.pccOf x).changeDue = false ∨ (sessionOf s x).state ≠ .pick) → exec (.pickComplete x headLast) s = .next s)
    ∧ ∀ e p w, NumbersBounded s → TipsInPlace s → (s.pccOf x).changeDue = true → (sessionOf s x).state = .pick →
      (s.tcuOf x).touchDue ≠ .resolve →
      (sessionOf s x).pickTip = some e → (sessionOf s x).pickPort = some p → zoneOf s 0 = .held x false w →
      let code := (s.pccOf x).codeLast
      (code ≠ 0 → ∀ u, isTip u → u ≠ e → (tipOf s u).present = true → (tipOf s u).code ≠ code) →
      (code = (tipOf s e).code ∨ (tipOf s e).code = 0) →
      exec (.pickComplete x headLast) s = .next
        (sessionEnd x (sessionRelease x w (post (.change x) (.done (some e))
          ((setPort p .empty (onTip e (fun r => { r with location := .onArm x }) s)).onCen x
            (fun c => { c with history := [] }))))))
  ∧ (∀ (s : State) (x : Arm) (input : Memory 8),
    let t := readStatus x input s
    (SlotUnread s input 3 (armCode x) → t = s)
    ∧ ∀ off, SlotAt s 3 (armCode x) off → marked input off →
      let head : HeadState := match (Memory.read input (off + 1)).toNat with
        | 0 => .seated
        | 1 => .opened
        | _ => .fault
      let code := BitVec.ofNat 16 (Memory.readLE input (off + 2) 2)
      let read (consistent due : Bool) : State := s.onPcc x (fun p =>
        { p with headLast := some head, codeLast := code, consistent := consistent, changeDue := due })
      let fits := ∀ u ∈ mountedTip s x, head = .seated ∧ ((tipOf s u).code = 0 ∨ (tipOf s u).code = code)
      let shown (occupied : Bool) (p : Nat) : Prop := ∃ o, SlotAt s 4 0 o ∧ marked input o
        ∧ (BitVec.ofNat 12 (Memory.readLE input (o + 1) 2)).getLsbD p = occupied
      let c := sessionOf s x
      let completes := (c.state = .drop ∧ head = .opened ∧ ∃ p ∈ c.dropPort, shown true p)
        ∨ (c.state = .pick ∧ head = .seated ∧ ∃ p ∈ c.pickPort, shown false p)
      let kept := (s.pccOf x).consistent
      (c.state = .idle → fits → t = read true (s.pccOf x).changeDue)
      ∧ (c.state = .idle → ¬ fits → kept = false → t = raise x .head (read false (s.pccOf x).changeDue))
      ∧ (c.state = .idle → ¬ fits → kept = true →
          t = post (.change x) (.head (some head) code) (raise x .head (read false (s.pccOf x).changeDue)))
      ∧ (c.state ≠ .idle → completes → t = read kept true)
      ∧ (c.state ≠ .idle → ¬ completes → t = read kept false))
  ∧ (∀ (s : State) (input : Memory 8) (spared : List Nat),
    let port (p : Nat) : State := takeRack input spared (.port p) s
    (SlotUnread s input 4 0 → takeRack input spared .reading s = s ∧ ∀ p, port p = s)
    ∧ ∀ off, SlotAt s 4 0 off → marked input off →
      let shown := BitVec.ofNat 12 (Memory.readLE input (off + 1) 2)
      let named (p : Nat) : Prop := ∃ x, (sessionOf s x).state ≠ .idle
        ∧ ((sessionOf s x).dropPort = some p ∨ (sessionOf s x).pickPort = some p)
      takeRack input spared .reading s = { s with pcc := { s.pcc with occupancy := some shown } }
      ∧ (∀ p, p ∈ spared ∨ named p → port p = s)
      ∧ (∀ p, p ∉ spared → ¬ named p →
          (∀ u, portOf s p = .holds u → shown.getLsbD p = false →
            port p = post .rack (.missing p u) (setPort p .unverified (onTip u (fun r => { r with location := .unknown }) s)))
          ∧ (portOf s p = .empty → shown.getLsbD p = true → port p = post .rack (.occupied p) (setPort p .unverified s))
          ∧ ((∀ u, portOf s p = .holds u → shown.getLsbD p = true) → (portOf s p = .empty → shown.getLsbD p = false) →
            port p = s)))
  ∧ (∀ (s : State) (input : Memory 8), rackPass input [] (rackSteps []) s
      = (List.range 12).foldl (fun u p => takeRack input [] (.port p) u) (takeRack input [] .reading s))

/-- R86, R87, R89, R95: a mismatch at pick, with no tip identified and with a tip M identified, and all that it leaves of the
block: the session's own arm, the other arm where it loses M or waits for it, and nothing else. Which of the two postings
at CHANGE_y comes last, where both are made, is the world's choice (log 29). That the head posting carries the head state and
the code last read for that arm is the model's reading (log 17). -/
def Obligations.PickMismatch : Prop :=
  ∀ (s : State) (x : Arm) (headLast : Bool) (e p : Nat), NumbersBounded s → TipsInPlace s →
    (s.pccOf x).changeDue = true → (sessionOf s x).state = .pick →
    (sessionOf s x).pickTip = some e → (sessionOf s x).pickPort = some p →
    let y := otherArm x
    let code := (s.pccOf x).codeLast
    let carries (u : Nat) : Prop := isTip u ∧ u ≠ e ∧ (tipOf s u).present = true ∧ (tipOf s u).code = code
    ((∀ u, code ≠ 0 → ¬ carries u) → code ≠ (tipOf s e).code → (tipOf s e).code ≠ 0 →
      exec (.pickComplete x headLast) s = .next
        (post (.change x) (.fault .identity (some e) none code) (raise x .change
          ((setPort p .empty (onTip e (fun r => { r with location := .unknown }) s)).onPcc x (fun q =>
            { q with
              session := { q.session with state := .fault, timer := none, fault := some .identity },
              changeDue := false })))))
    ∧ ∀ m, code ≠ 0 → carries m → SuppressedWithSession s →
      let former := (tipOf s m).location
      let lost := decide (former = .onArm y)
      let cancelled := decide ((sessionOf s y).state = .waitZone)
        && (decide ((sessionOf s y).dropTip = some m) || decide ((sessionOf s y).pickTip = some m))
      let aged := lost && decide ((s.tcuOf y).touchDue = .resolve)
      let head : State → State := if lost then post (.change y) (.head (s.pccOf y).headLast (s.pccOf y).codeLast) else id
      let cancel : State → State := if cancelled then post (.change y) .cancelled else id
      let posted := if headLast then head (cancel s) else cancel (head s)
      ∃ t, exec (.pickComplete x headLast) s = .next t
        ∧ (∀ u, isTip u → tipOf t u = { tipOf s u with
            location := if u = m then .onArm x else if u = e then .unknown else (tipOf s u).location })
        ∧ (∀ q < 12, portOf t q = if q = p then .empty else if former = .port q then .unverified else portOf s q)
        ∧ t.pcc.tips.length = 32 ∧ t.pcc.ports.length = 12
        ∧ t.pccOf x = { s.pccOf x with
            session := { sessionOf s x with state := .fault, timer := none, fault := some .identity }, changeDue := false }
        ∧ t.pccOf y = { s.pccOf y with
            session := if cancelled then Session.idle else sessionOf s y,
            changeDue := (s.pccOf y).changeDue && !cancelled,
            consistent := (s.pccOf y).consistent && !(lost && (cancelled || decide ((sessionOf s y).state = .idle))) }
        ∧ t.cenOf x = { s.cenOf x with history := [] }
        ∧ t.cenOf y = (if lost then { s.cenOf y with history := [] } else s.cenOf y)
        ∧ t.tcuOf x = { s.tcuOf x with
            touchDue := if (s.tcuOf x).touchDue = .resolve then .none else (s.tcuOf x).touchDue }
        ∧ t.tcuOf y = { s.tcuOf y with
            trigger := match triggerOf s y with
              | .disarmed => .disarmed
              | .armed => if lost then .disarmed else .armed
              | .rearm n => if lost then .disarmed else .rearm n
              | .latched l => .latched { l with age := if aged then l.age + 1 else l.age }
              | .suppressed => if cancelled then .disarmed else .suppressed,
            touchDue := if aged then
                match triggerOf s y with
                | .latched l => if stationField (·.latchLimit) s ≤ l.age + 1 then .late else .none
                | _ => .none
              else (s.tcuOf y).touchDue }
        ∧ t.mgdOf x = { s.mgdOf x with causes := addCause (s.mgdOf x).causes .change }
        ∧ t.mgdOf y = { s.mgdOf y with
            causes := (s.mgdOf y).causes ||| (if lost then causeOnly .head else 0)
              ||| (if cancelled then causeOnly .change else 0) }
        ∧ t.mgd.zones = (if cancelled then
            s.mgd.zones.set 0 (match zoneOf s 0 with
              | .held h r w => .held h r (w && decide (h = y))
              | .free => .free)
            else s.mgd.zones)
        ∧ t.evu = (post (.change x) (.fault .identity (some e) (some m) code) posted).evu
        ∧ t = { s with
            pcc := { t.pcc with occupancy := s.pcc.occupancy }, cen := t.cen, tcu := { s.tcu with arm := t.tcu.arm },
            mgd := t.mgd, evu := t.evu }

/-- R106, R103, R83: DEFERRED_RELEASE of a zone whose holder is RELEASING and outside, with no waiter, with a waiter, and of
zone 0 with a waiting session; a release that is not due leaves the block alone (log 1). -/
def Obligations.DeferredReleaseFreesOrGrants : Prop :=
  ∀ (s : State) (z : Nat),
    (releaseDue s z = false → exec (.deferredRelease z) s = .next s)
    ∧ ∀ x, insideOf s x z = .outside →
      let y := otherArm x
      let released := post (.zone x) (.released z) s
      let granted := post (.zone y) (.granted z) (setZone z (.held y false false) released)
      (zoneOf s z = .held x true false → exec (.deferredRelease z) s = .next (setZone z .free released))
      ∧ (zoneOf s z = .held x true true → (z = 0 → (sessionOf s y).state ≠ .waitZone) →
          exec (.deferredRelease z) s = .next granted)
      ∧ (zoneOf s z = .held x true true → z = 0 → (sessionOf s y).state = .waitZone →
          exec (.deferredRelease z) s = .next (onSession y (fun c =>
            { c with
              state := if c.dropTip.isSome then .drop else .pick,
              timer := some (stationField (·.stepTimeout) s) }) granted))

/-- R124: a return pass takes 128 words of each check, but for the pass of the frame that carried the request. R125 to R129:
TABLE_CHECK_COMPLETE compares the weighted sum of all the words of the bank with the expected sum, then tests the content
rules, and records the first broken one in word order (log 12: of a rule between two slots at the later entry; log 24: of a
zone's enabled code only 8 bits are tested); a check that is not over is left alone (log 1). R119, R127, 10.2, 10.6: the codes and
the capacities of the kinds, and the words that hold each field of the STATION RECORD, the ZONE TABLE and the ARM MAPs. -/
def Obligations.TableCheckCompletes : Prop :=
  (∀ (s : State) (k : TableKind),
    (checkDue (s.tbsOf k) = false → exec (.tableCheckComplete k) s = .next s)
    ∧ (∀ e, (s.tbsOf k).state = .checking e 0 false → bankOk k (s.tbsOf k).staging = true →
      let bank := (s.tbsOf k).staging
      let sum : Word := ((List.range (capacity k)).map (fun a => BitVec.ofNat 32 (a + 1) * Memory.read bank a)).sum
      ∃ r, exec (.tableCheckComplete k) s = .next (post .table (.check k r) (s.onTbs k (fun t =>
            { t with state := if r = .passed then .passed else .failed, lastResult := some r })))
        ∧ (sum ≠ e → r = .failedSum sum)
        ∧ (sum = e → (∀ o, ¬ brokenAt k bank s o) → r = .passed)
        ∧ (sum = e → ∀ o, brokenAt k bank s o → (∀ p < o, ¬ brokenAt k bank s p) → r = .failedContent o))
    ∧ (∀ t, t = checksPass s → t = { s with tbs := t.tbs } ∧ ∀ k, t.tbsOf k = { s.tbsOf k with
        state := match (s.tbsOf k).state with
          | .checking e left fresh => .checking e (if fresh then left else left - 128) false
          | other => other }))
  ∧ (let is (k : TableKind) (code : Byte) (words : Nat) : Prop := kindOf code = some k ∧ kindByte k = code ∧ capacity k = words
    is .slotMap 1 48 ∧ is (.armMap .a) 2 896 ∧ is (.armMap .b) 3 896 ∧ is .channelTable 4 192 ∧ is .zoneTable 5 64
      ∧ is .stationRecord 6 16 ∧ ∀ code, (code = 0 ∨ 7 ≤ code.toNat) → kindOf code = none)
  ∧ (∀ b : Bank,
    let w (a : Nat) : Nat := (Memory.read b a).toNat
    let field40 (v : Nat) : Int := (BitVec.ofNat 40 v).toInt
    let field24 (a : Nat) : Int := (BitVec.ofNat 24 (w a)).toInt
    stationRecordOf b = {
        window := w 0, period := w 1, ringLimit := if w 2 = 0 then 8 else w 2,
        rounding := match w 3 with
          | 1 => .towardZero
          | 2 => .towardPlus
          | 3 => .towardMinus
          | _ => .nearestEven,
        pointSlots := w 4, latchLimit := w 5, stepTimeout := w 6, autoInterval := w 7, band := w 8 }
    ∧ (∀ z < 8,
      let v (i : Nat) : Nat := w (8 * z + i)
      zoneRecord b z = {
        lo := ⟨field40 (v 0 + 2 ^ 32 * (v 1 % 2 ^ 8)), field40 (v 1 / 2 ^ 8 + 2 ^ 24 * (v 2 % 2 ^ 16)),
          field40 (v 2 / 2 ^ 16 + 2 ^ 16 * (v 3 % 2 ^ 24))⟩,
        hi := ⟨field40 (v 3 / 2 ^ 24 + 2 ^ 8 * v 4), field40 (v 5 + 2 ^ 32 * (v 6 % 2 ^ 8)),
          field40 (v 6 / 2 ^ 8 + 2 ^ 24 * (v 7 % 2 ^ 16))⟩,
        enabled := decide (v 7 / 2 ^ 16 % 2 ^ 8 = 1) })
    ∧ (∀ a < 3,
      let o := 11 * a
      axisRecord b a = {
        pitch := w o, zero := field40 (w (o + 1) + 2 ^ 32 * w (o + 2)), alpha := w (o + 3),
        lo := field40 (w (o + 4) + 2 ^ 32 * w (o + 5)), hi := field40 (w (o + 6) + 2 ^ 32 * w (o + 7)),
        offset := field40 (w (o + 8) + 2 ^ 32 * w (o + 9)), sign := (Memory.read b (o + 10)).toInt })
    ∧ squareXY b = field24 33 ∧ squareXZ b = field24 34 ∧ squareYZ b = field24 35 ∧ envelope b = w 36
    ∧ (polarityRising b = true ↔ w 37 = 0) ∧ rearmInterval b = w 38
    ∧ maskBit b .numeric = (Memory.read b 39).getLsbD 0 ∧ maskBit b .mapRange = (Memory.read b 39).getLsbD 1
    ∧ maskBit b .thermal = (Memory.read b 39).getLsbD 2 ∧ maskBit b .pointLost = (Memory.read b 39).getLsbD 3
    ∧ (∀ i < 12,
      let o := 68 + 69 * i
      tableStart b i = field40 (w o + 2 ^ 32 * w (o + 1))
        ∧ tablePitch b i = (if w (o + 2) = 0 then 1000000 else w (o + 2))
        ∧ tableCount b i = (if w (o + 3) = 0 then 2 else w (o + 3)) ∧ ∀ n < 65, tableNode b i n = field24 (o + 4 + n)))

/-! ## Trigger edges -/

/-- R48 to R53: TRIGGER_EDGE by trigger state, at a block with nothing due (log 3). An edge that is not of the arm's polarity,
or that meets no active ARM MAP or no address, only finds the clock run on. That the latency is 0 with no tip mounted at
the edge is the model's choice (log 35). -/
def Obligations.TriggerEdgeByState : Prop :=
  ∀ (s : State) (elapsed : Nat) (x : Arm) (rising : Bool),
    (s.riu.inReset = true → exec (.triggerEdge elapsed x rising) s = .next s)
    ∧ (Settled elapsed s →
      let later := { s with riu := { s.riu with clock := clockAfter s.riu.clock elapsed } }
      let edge := exec (.triggerEdge elapsed x rising) s
      ((s.riu.station = .unaddressed ∨ armBank x s = none
          ∨ ∃ b, armBank x s = some b ∧ (rising = true ↔ Memory.read b 37 ≠ 0)) → edge = .next later)
      ∧ ∀ b, armBank x s = some b → s.riu.station ≠ .unaddressed → (rising = true ↔ Memory.read b 37 = 0) →
        (triggerOf s x = .disarmed → edge = .next (post .strayTrigger (.stray x) later))
        ∧ (triggerOf s x = .armed →
            let latency := match mountedTip s x with
              | some t => (tipOf s t).latency
              | none => 0
            edge = .next (later.onTcu x (fun u => { u with
              trigger := .latched
                { trg := later.riu.clock, contact := (later.riu.clock.toNat : Int) - latency, seq := u.nextSeq,
                  age := 0, double := false, disarmAfter := false, feature := u.feature },
              nextSeq := u.nextSeq + 1 })))
        ∧ (∀ l, triggerOf s x = .latched l →
            edge = .next (later.onTcu x (fun u => { u with trigger := .latched { l with double := true } })))
        ∧ ((∃ n, triggerOf s x = .rearm n) ∨ triggerOf s x = .suppressed → edge = .next later))

/-! ## The Correction Engine, the Thermal Unit and the Motion Guard on a pass -/

/-- 00 (Rounding terms): round() is to nearest, ties away from zero. R17, R18: an output coordinate is a tenth of the length
rounded by the mode, then saturated to the signed 32-bit range. -/
def Obligations.RoundingAndSaturation : Prop :=
  (∀ (n : Int) (d : Nat), 0 < d →
    let q := roundDiv n d
    2 * |n - q * d| ≤ d ∧ (2 * |n - q * d| = d → |n| < |q * d|))
  ∧ (∀ v : Int,
    let near := roundOutput .nearestEven v
    2 * |v - 10 * near| ≤ 10 ∧ (2 * |v - 10 * near| = 10 → near % 2 = 0)
      ∧ roundOutput .towardZero v = v.tdiv 10
      ∧ (10 * (roundOutput .towardPlus v - 1) < v ∧ v ≤ 10 * roundOutput .towardPlus v)
      ∧ (10 * roundOutput .towardMinus v ≤ v ∧ v < 10 * (roundOutput .towardMinus v + 1)))
  ∧ (∀ (m : Rounding) (v : Int),
    outputCoord m v = max (-2 ^ 31) (min (2 ^ 31 - 1) (roundOutput m v))
      ∧ (outputSaturates m v = true ↔ roundOutput m v < -2 ^ 31 ∨ 2 ^ 31 ≤ roundOutput m v))

/-- R8, R9, R10: the lookup of an error table, whose nodes stand one pitch apart from its start on. -/
def Obligations.TableLookup : Prop :=
  ∀ (b : Bank) (i : Nat) (pos : Int),
    let pitch := tablePitch b i
    let last := tableCount b i - 1
    let node (n : Nat) : Int := tableNode b i n
    let start := tableStart b i
    let identity := tableCount b i = 2 ∧ node 0 = 0 ∧ node 1 = 0
    (identity → lookup b i pos = ⟨0, false⟩)
    ∧ (¬ identity → pos < start → lookup b i pos = ⟨node 0, true⟩)
    ∧ (¬ identity → 2 ≤ tableCount b i → start + last * pitch < pos → lookup b i pos = ⟨node last, true⟩)
    ∧ (¬ identity → 2 ≤ tableCount b i → pos = start + last * pitch → lookup b i pos = ⟨node last, false⟩)
    ∧ (∀ n u : Nat, ¬ identity → n < last → u < pitch → pos = start + n * pitch + u →
        lookup b i pos = ⟨node n + roundDiv ((node (n + 1) - node n) * u) pitch, false⟩)

/-- R11 to R18, R60, R61: the five stages of the correction of a sample, and the cell position of a point; R10: the axes whose
tables were looked up beyond their span, the angular tables recording Y; R18: the axes that saturated; 10.3: the bits of
the position flags. -/
def Obligations.CorrectionChainStages : Prop :=
  (∀ (b : Bank) (a : AppliedSet) (o c : Vec3) (m : Rounding),
    let r := chain b a o m c
    let stage1 (i : Nat) (count : Int) : Int := word40 b (11 * i + 1) + roundDiv (count * wordNat b (11 * i)) 1000
    let stage2 (i : Nat) (count temp : Int) : Int :=
      stage1 i count + roundDiv (stage1 i count * wordNat b (11 * i + 3) * (temp - 20000)) (10 ^ 12)
    let qx := stage2 0 c.x a.scaleX.value
    let qy := stage2 1 c.y a.scaleY.value
    let qz := stage2 2 c.z a.scaleZ.value
    let e (i : Nat) (q : Int) : Int := (lookup b i q).value
    let beyond (i : Nat) (q : Int) : Prop :=
      ¬ (tableCount b i = 2 ∧ tableNode b i 0 = 0 ∧ tableNode b i 1 = 0)
        ∧ (q < tableStart b i ∨ tableStart b i + ((tableCount b i - 1) * tablePitch b i : Nat) < q)
    let nrad (v : Int) : Int := roundDiv v (10 ^ 9)
    r.g.x = qx + e 0 qx + e 3 qy + e 6 qz + (nrad (word24 b 33 * qy) + nrad (word24 b 34 * qz))
      ∧ r.g.y = qy + e 1 qx + e 4 qy + e 7 qz + nrad (word24 b 35 * qz)
      ∧ r.g.z = qz + e 2 qx + e 5 qy + e 8 qz
      ∧ r.t.x = r.g.x + o.x + (nrad (e 10 qy * o.z) - nrad (e 11 qy * o.y))
      ∧ r.t.y = r.g.y + o.y + (nrad (e 11 qy * o.x) - nrad (e 9 qy * o.z))
      ∧ r.t.z = r.g.z + o.z + (nrad (e 9 qy * o.y) - nrad (e 10 qy * o.x))
      ∧ r.out = ⟨outputCoord m r.t.x, outputCoord m r.t.y, outputCoord m r.t.z⟩
      ∧ (r.beyond.getLsbD 0 = true ↔ beyond 0 qx ∨ beyond 1 qx ∨ beyond 2 qx)
      ∧ (r.beyond.getLsbD 1 = true ↔ beyond 3 qy ∨ beyond 4 qy ∨ beyond 5 qy ∨ beyond 9 qy ∨ beyond 10 qy ∨ beyond 11 qy)
      ∧ (r.beyond.getLsbD 2 = true ↔ beyond 6 qz ∨ beyond 7 qz ∨ beyond 8 qz)
      ∧ (r.saturated.getLsbD 0 = true ↔ r.out.x ≠ roundOutput m r.t.x)
      ∧ (r.saturated.getLsbD 1 = true ↔ r.out.y ≠ roundOutput m r.t.y)
      ∧ (r.saturated.getLsbD 2 = true ↔ r.out.z ≠ roundOutput m r.t.z))
  ∧ (∀ valid beyond saturated noTip stale clamp : Bool,
    let f := positionFlags valid beyond saturated noTip stale clamp
    f.getLsbD 0 = valid ∧ f.getLsbD 1 = beyond ∧ f.getLsbD 2 = saturated ∧ f.getLsbD 3 = noTip ∧ f.getLsbD 4 = stale
      ∧ f.getLsbD 5 = clamp)
  ∧ (∀ (s : State) (x : Arm) (b : Bank) (p : Vec3), armBank x s = some b →
    let cell (i : Nat) (v : Int) : Int := word40 b (11 * i + 8) + wordInt b (11 * i + 10) * v
    let w := s.tcu.workpiece
    let temp := (s.thuOf x).applied.workpiece.value
    let at20 (c o : Int) : Int :=
      if w.valid then c - roundDiv ((c - o) * w.coefficient * (temp - 20000)) (10 ^ 12) else c
    pointPosition s x p = ⟨at20 (cell 0 p.x) w.origin.x, at20 (cell 1 p.y) w.origin.y, at20 (cell 2 p.z) w.origin.z⟩)

/-- R31 to R37: the update of a temperature channel with a new sample, by channel state. R27 to R30: the intake of a channel on
a return pass, from the reading of its slot. R27, R47: the steps of the Thermal Unit on a pass, the channels' restart first. That
channels and roles go in number order where the world names no order is the model's choice (log 5). -/
def Obligations.ChannelUpdateByState : Prop :=
  (∀ (r : ChannelRecord) (sync : BitVec 64) (m : TempReading) (c : Channel),
    let u := updateChannel r sync m c
    let x := m.value
    let seen := { c with counter := some m.counter }
    let inLimits := r.low ≤ x ∧ x ≤ r.high
    let slow (f : ChannelFilter) : Prop :=
      let e : Int := (sync.toNat : Int) - f.time.toNat
      if 0 < e then roundDiv (|x - f.last| * 10 ^ 9) e.toNat ≤ r.maxRate else x = f.last
    let accepted (y : Int) : Channel := { seen with state := .valid, filter := some ⟨y, x, sync⟩, count := 0 }
    (c.counter = some m.counter → u = (c, none))
    ∧ (c.counter ≠ some m.counter → m.ok = true → inLimits →
        (c.state = .noData → u = (accepted (256 * x), none))
        ∧ (c.state = .failed → u = (accepted (256 * x), some .recovered))
        ∧ (∀ f, c.state = .valid ∨ c.state = .held → c.filter = some f → slow f →
            u = (accepted (f.y + (256 * x - f.y) / 2 ^ r.shift), none)))
    ∧ (∀ why : RejectReason, c.counter ≠ some m.counter →
        ((m.ok = false ∧ why = .status) ∨ (m.ok = true ∧ ¬ inLimits ∧ why = .range)
          ∨ (m.ok = true ∧ inLimits ∧ why = .rate ∧ (c.state = .valid ∨ c.state = .held)
              ∧ ∃ f, c.filter = some f ∧ ¬ slow f)) →
        let n := if c.state = .valid then 1 else c.count + 1
        ((c.state = .noData ∨ c.state = .failed) → u = ({ seen with reason := some why }, none))
        ∧ ((c.state = .valid ∨ c.state = .held) → n < r.holdLimit →
            u = ({ seen with reason := some why, state := .held, count := n }, none))
        ∧ ((c.state = .valid ∨ c.state = .held) → r.holdLimit ≤ n →
            u = ({ seen with reason := some why, state := .failed, count := n }, some (.failed why)))))
  ∧ (∀ (table : Bank) (sync : BitVec 64) (input : Memory 8) (i : Nat) (s : State), i < 24 → s.thu.channels.length = 24 →
    let t := intakeChannel table sync input i s
    let w (n : Nat) : Nat := wordNat table (8 * i + n)
    (w 0 = 0 ∨ 6 ≤ w 1 → t = s)
    ∧ (SlotUnread s input 2 (w 1) → w 1 < 6 → t = s)
    ∧ ∀ off c, w 0 ≠ 0 → w 1 < 6 → SlotAt s 2 (w 1) off → marked input off → s.thu.channels[i]? = some c →
      let o := off + 4 + 4 * w 2
      let code := Memory.read input (o + 3)
      let m : TempReading := ⟨(BitVec.ofNat 24 (Memory.readLE input o 3)).toInt, decide (code.extractLsb' 4 2 = 0),
        code.extractLsb' 0 4⟩
      let r : ChannelRecord :=
        ⟨some (w 0 - 1), w 1, w 2, wordInt table (8 * i + 3), wordInt table (8 * i + 4), w 5, w 6, w 7⟩
      let u := updateChannel r sync m c
      let posted : State → State := match u.2 with
        | none => id
        | some (.failed why) => post .thermal (.channelFailed i why)
        | some .recovered => post .thermal (.channelRecovered i)
      t = posted { s with thu := { s.thu with channels := s.thu.channels.set i u.1 } })
  ∧ (∀ (sync : BitVec 64) (input : Memory 8) (s : State),
    let restarted := if s.thu.restart then
        { s with thu := { s.thu with channels := List.replicate 24 ⟨.noData, none, 0, none, none⟩, restart := false } }
      else s
    (activeBank .channelTable s = none → ∀ steps, thermalPass sync input steps s = s)
    ∧ ∀ table, activeBank .channelTable s = some table →
      thermalPass sync input (thermalSteps [] []) s = (List.range 8).foldl (fun u a => aggregateRole table a u)
        ((List.range 24).foldl (fun u i => intakeChannel table sync input i u) restarted))

/-- R38, R39, R40, R41: the aggregation of a role on a pass, from the filtered values `vs` of its contributing channels, those
of the role in VALID and HELD (R37: a filtered value is its filter state divided by 256, halves going up): the clamped mean
with halves going up, or the stale value, and what a stale onset posts and raises. -/
def Obligations.AggregationOfARole : Prop :=
  ∀ (table : Bank) (a : Nat) (s : State), a < 8 → s.thu.aggregates.length = 8 → RecordsKept s →
    let g := aggregateOf s a
    let channel (i : Nat) : Channel := s.thu.channels.getD i Channel.reset
    let contributing (i : Nat) : Bool := decide (wordNat table (8 * i) = a + 1)
      && (decide ((channel i).state = .valid) || decide ((channel i).state = .held))
    let vs : List Int := ((List.range 24).filter contributing).filterMap
      (fun i => (channel i).filter.map (fun f => (f.y + 128) / 256))
    let n : Int := vs.length
    let mean : Int := (2 * vs.sum + n) / (2 * n)
    let t := aggregateRole table a s
    let onset := vs = [] ∧ g.temp.stale = false
    let arms (x : Arm) : Prop := 6 ≤ a ∨ (x = .a ∧ a < 3) ∨ (x = .b ∧ 3 ≤ a)
    (vs ≠ [] → mean < 10000 → aggregateOf t a = ⟨⟨10000, false, true⟩, true⟩)
    ∧ (vs ≠ [] → 50000 < mean → aggregateOf t a = ⟨⟨50000, false, true⟩, true⟩)
    ∧ (vs ≠ [] → 10000 ≤ mean → mean ≤ 50000 → aggregateOf t a = ⟨⟨mean, false, false⟩, true⟩)
    ∧ (vs = [] → g.everFresh = true → aggregateOf t a = ⟨{ g.temp with stale := true }, true⟩)
    ∧ (vs = [] → g.everFresh = false → aggregateOf t a = ⟨⟨20000, true, false⟩, false⟩)
    ∧ (∀ i, i < 8 → i ≠ a → aggregateOf t i = aggregateOf s i)
    ∧ (onset → t.evu = (post .thermal (.aggregateStale a) s).evu)
    ∧ (∀ x c, hasCause (t.mgdOf x).causes c = true ↔ hasCause (s.mgdOf x).causes c = true
        ∨ (c = .thermal ∧ onset ∧ arms x ∧ MaskHas s x 2))
    ∧ (∀ x, t.mgdOf x = { s.mgdOf x with causes := (t.mgdOf x).causes }) ∧ t.mgd.zones = s.mgd.zones
    ∧ (¬ onset → t = { s with thu := t.thu })
    ∧ t = { s with thu := { s.thu with aggregates := t.thu.aggregates }, mgd := t.mgd, evu := t.evu }

/-- R97 to R100, R108, R109, R112, R113: what the Motion Guard does with an exact tip position `p` of an arm: the inside
records, the latches, the onsets with their event and cause, and the creep entries it removes. -/
def Obligations.GuardOnAPosition : Prop :=
  ∀ (s : State) (x : Arm) (p : Vec3) (arm : Bank), armBank x s = some arm →
    let t := monitorArm x p s
    let cell (i : Nat) (v : Int) : Int := word40 arm (11 * i + 8) + wordInt arm (11 * i + 10) * v
    let r : Int := wordNat arm 36
    let near (lo hi c : Int) : Prop := lo - r ≤ c ∧ c ≤ hi + r
    let inZone (z : Nat) : Prop := ∃ b, activeBank .zoneTable s = some b
      ∧ near (zoneRecord b z).lo.x (zoneRecord b z).hi.x (cell 0 p.x)
      ∧ near (zoneRecord b z).lo.y (zoneRecord b z).hi.y (cell 1 p.y)
      ∧ near (zoneRecord b z).lo.z (zoneRecord b z).hi.z (cell 2 p.z)
    let enabled (z : Nat) : Prop := ∃ b, activeBank .zoneTable s = some b ∧ (zoneRecord b z).enabled = true
    let former := (s.mgdOf x).latches
    let now := (t.mgdOf x).latches
    let onsets := now &&& ~~~former
    let creep := (s.mgdOf x).creep
    (∀ z < 8, (inZone z → insideOf t x z = .inside) ∧ (¬ inZone z → insideOf t x z = .outside)
        ∧ (now.getLsbD z = true ↔ enabled z ∧ inZone z ∧ ∀ w v, zoneOf s z ≠ .held x w v)
        ∧ (t.mgdOf x).creep.getLsbD z = (creep.getLsbD z && now.getLsbD z))
    ∧ hasCreepLimit (t.mgdOf x).creep = (hasCreepLimit creep && decide ((s.cenOf x).limit ≠ 0))
    ∧ (onsets ≠ 0 → t.evu = (post (.intrusion x) (.zones onsets) s).evu)
    ∧ (onsets = 0 → t.evu = s.evu)
    ∧ (∀ c, hasCause (t.mgdOf x).causes c = true ↔ hasCause (s.mgdOf x).causes c = true
        ∨ (c = .intrusion ∧ ∃ z < 8, onsets.getLsbD z = true ∧ creep.getLsbD z = false))
    ∧ t.mgdOf (otherArm x) = s.mgdOf (otherArm x) ∧ t.mgd.zones = s.mgd.zones
    ∧ t = { s with mgd := t.mgd, evu := t.evu }

/-- R167: the selection of a return pass: the eligible source of highest priority, the lowest number among equals, whose
detail, overrun flag and number fill the event slot and which is cleared; and an empty slot when none is eligible. 10.3: the
detail words of every posting; the head-state word of a head never read is a free value (log 17). R164, 9.1: what a posting
does to its source, by the number 9.1 gives it, and to nothing else. -/
def Obligations.EventSelection : Prop :=
  (∀ s : State, s.evu.sources.length = 17 →
    let q (n : Nat) : SourceState := s.evu.sources.getD n ⟨none, false, 0⟩
    let eligible (n : Nat) : Prop := n < 17 ∧ (q n).detail ≠ none ∧ s.evu.reportLevel < (q n).priority
    let bit (v : Bool) : Byte := if v then 1 else 0
    ((∀ n, ¬ eligible n) → (selectEvent s).2 = s
        ∧ ∃ rest, (selectEvent s).1 = [255, 0, 0, 0] ++ leBytes 4 (pendingSet s) ++ rest
            ∧ rest = List.replicate 12 0)
    ∧ ∀ n d, eligible n → (q n).detail = some d →
      (∀ m, eligible m → m ≠ n → (q m).priority < (q n).priority ∨ ((q m).priority = (q n).priority ∧ n < m)) →
      let t := (selectEvent s).2
      t = { s with evu := { s.evu with sources := s.evu.sources.set n ⟨none, false, (q n).priority⟩ } }
        ∧ (selectEvent s).1 = [BitVec.ofNat 8 n, bit (q n).overrun, 0, 0] ++ leBytes 4 (pendingSet t)
            ++ wordsBytes (detailWords d)
        ∧ (∀ m < 17, (pendingSet t).testBit m = (decide (m ≠ n) && (q m).detail.isSome)))
  ∧ (let tip (t : Option Nat) : Nat := t.getD 0
    let cause (c : FaultCause) : Nat := match c with
      | .timeout => 1
      | .ring => 2
      | .identity => 3
    let reason (r : RejectReason) : Nat := match r with
      | .status => 1
      | .range => 2
      | .rate => 3
    let words (d : Detail) (a b c : Nat) : Prop :=
      detailWords d = [BitVec.ofNat 32 a, BitVec.ofNat 32 b, BitVec.ofNat 32 c]
    (∀ zs : BitVec 8, words (.zones zs) zs.toNat 0 0) ∧ (∀ ps : BitVec 6, words (.limits ps) ps.toNat 0 0)
    ∧ words (.reader .noSlot) 1 0 0 ∧ words (.reader .notWritten) 2 0 0 ∧ words (.reader .scaleFault) 3 0 0
    ∧ words (.reader .notReferenced) 4 0 0
    ∧ (∀ t, words (.done t) 1 (tip t) 0)
    ∧ (∀ c e m (code : BitVec 16), words (.fault c e m code) 2 (cause c + 256 * tip e + 65536 * tip m) code.toNat)
    ∧ (∀ kept new, words (.furtherFault kept new) 3 (cause kept + 256 * cause new) 0)
    ∧ words (.aborted .waitZone) 4 1 0 ∧ words (.aborted .drop) 4 2 0 ∧ words (.aborted .pick) 4 3 0
    ∧ words (.aborted .fault) 4 4 0
    ∧ (∀ code : BitVec 16, words (.head (some .seated) code) 5 0 code.toNat
        ∧ words (.head (some .opened) code) 5 1 code.toNat ∧ words (.head (some .fault) code) 5 2 code.toNat
        ∧ words (.head none code) 5 Config.unreadHeadWord.toNat code.toNat)
    ∧ words .cancelled 6 3 0
    ∧ (∀ z, words (.granted z) z 1 0 ∧ words (.released z) z 2 0)
    ∧ (∀ (seq : BitVec 16), words (.pointLost .a seq .noPosition) 0 seq.toNat 1
        ∧ words (.pointLost .b seq .noPosition) 1 seq.toNat 1 ∧ words (.pointLost .a seq .queueFull) 0 seq.toNat 2
        ∧ words (.pointLost .b seq .queueFull) 1 seq.toNat 2)
    ∧ words (.stray .a) 0 0 0 ∧ words (.stray .b) 1 0 0
    ∧ (∀ (sat beyond : Bool) (sa ba : BitVec 3),
        let onsets := (if sat then 1 else 0) + (if beyond then 2 else 0)
        words (.numeric .a sat beyond sa ba) 0 onsets (sa.toNat + 256 * ba.toNat)
          ∧ words (.numeric .b sat beyond sa ba) 1 onsets (sa.toNat + 256 * ba.toNat))
    ∧ (∀ i r, words (.channelFailed i r) i 1 (reason r)) ∧ (∀ i, words (.channelRecovered i) i 2 0)
    ∧ (∀ i, words (.aggregateStale i) (32 + i) 3 0)
    ∧ (∀ p t, words (.missing p t) p 1 t) ∧ (∀ p, words (.occupied p) p 2 0)
    ∧ (∀ k (sum : Word) o, words (.check k .passed) (kindByte k).toNat 1 0
        ∧ words (.check k (.failedSum sum)) (kindByte k).toNat 2 sum.toNat
        ∧ words (.check k (.failedContent o)) (kindByte k).toNat 3 o)
    ∧ (∀ k (g : BitVec 16), words (.activated k g) (kindByte k).toNat 4 g.toNat)
    ∧ words .ringLost 1 0 0 ∧ words .ringRestored 2 0 0)
  ∧ (∀ (src : EventSource) (d : Detail) (s : State), s.evu.sources.length = 17 →
    let number : Nat := match src with
      | .intrusion .a => 0
      | .intrusion .b => 1
      | .limit .a => 2
      | .limit .b => 3
      | .reader .a => 4
      | .reader .b => 5
      | .change .a => 6
      | .change .b => 7
      | .zone .a => 8
      | .zone .b => 9
      | .pointLost => 10
      | .strayTrigger => 11
      | .numeric => 12
      | .thermal => 13
      | .rack => 14
      | .table => 15
      | .ring => 16
    let q (n : Nat) : SourceState := s.evu.sources.getD n ⟨none, false, 0⟩
    let t := post src d s
    t = { s with evu := { s.evu with sources := t.evu.sources } } ∧ t.evu.sources.length = 17
      ∧ ∀ n < 17, t.evu.sources.getD n ⟨none, false, 0⟩
          = if n = number then ⟨some d, (q n).detail.isSome, (q n).priority⟩ else q n)

/-! ## Frames -/

/-- R149, R150, R90, R57, R58: MISSED_FRAME_DEADLINE at a block with nothing due: the clock stands at the deadline, the count
grows and the deadline moves on; at the limit ring loss begins: the causes, the sessions, the touches resolved late or lost
and the postings, and nothing else. A block that holds no deadline is left alone (log 1). -/
def Obligations.MissedFrameDeadlineCounts : Prop :=
  ∀ (s : State) (bFirst : Bool),
    (s.riu.deadline = none → exec (.missedFrameDeadline bFirst) s = .next s)
    ∧ ∀ d, s.riu.deadline = some d → NothingDue s →
      let m := min 65535 (s.riu.missed + 1)
      let limit := stationField (·.ringLimit) s
      let r := { s.riu with
        clock := clockAfter s.riu.clock (timeUntil s.riu.clock d), missed := m, deadline := some (clockAfter d (periodNs s)) }
      (s.riu.ringLoss = true ∨ m < limit → exec (.missedFrameDeadline bFirst) s = .next { s with riu := r })
      ∧ (s.riu.ringLoss = false → limit ≤ m → SessionFieldsFit s →
        let held (x : Arm) (g : MgdArm) : MgdArm := { g with
          causes := if inStep (sessionOf s x) then addCause (addCause g.causes .ring) .change else addCause g.causes .ring }
        let stopped (x : Arm) (q : PccArm) : PccArm :=
          if inStep (sessionOf s x) then { q with session := ringFaulted q.session, changeDue := false } else q
        let lost : State := { s with
          riu := { r with ringLoss := true },
          mgd := { s.mgd with arm := (s.mgd.arm.modify .a (held .a)).modify .b (held .b) },
          pcc := { s.pcc with arm := (s.pcc.arm.modify .a (stopped .a)).modify .b (stopped .b) },
          evu := (ringFaultPost .b (ringFaultPost .a s)).evu }
        let first := if bFirst then Arm.b else Arm.a
        ∃ s1 s2, exec (.missedFrameDeadline bFirst) s = .next (post .ring .ringLost s2)
          ∧ LateEnds lost s1 first ∧ LateEnds s1 s2 (otherArm first))

/-- R137, R149, R141: a frame with a failed check, and a cycle frame of wrong length, at P1 and at P2: neither is acted on, and
at P1 each counts as a missing frame. With P2's link down a cycle frame of wrong length is turned around (log 15), and of
a frame with a failed check nothing is said (log 14: a free value). -/
def Obligations.MissingFramesAreForwarded : Prop :=
  ∀ (s : State) (elapsed : Nat) (f : RingFrame) (bFirst : Bool), Settled elapsed s →
    let later := laterRiu elapsed s
    let counted := { later with
      missed := min 65535 (s.riu.missed + 1), deadline := some (clockAfter later.clock (3 * periodNs s / 2)) }
    let bad (port : RingPort) := exec (.badCheckFrame elapsed port f bFirst) s
    let wrong (port : RingPort) := exec (.wrongLengthFrame elapsed port f bFirst) s
    let turned (r : Riu) : Riu := if r.p2Up then r else { r with turned := min 65535 (s.riu.turned + 1) }
    let badOn (r : Riu) : Riu :=
      if r.p2Up then { r with sent2 := some ⟨f, false⟩ }
      else if Config.badFrameTurnsAround f then { r with sent1 := some ⟨f, false⟩ } else r
    (s.riu.p1Up = true → s.riu.deadline = none →
        bad .p1 = .next { s with riu := badOn later }
          ∧ (isWrongLength f = true → wrong .p1 = .next { s with riu := sentOn true f (turned later) }))
    ∧ (s.riu.p1Up = true → s.riu.deadline ≠ none →
        (s.riu.ringLoss = true ∨ counted.missed < stationField (·.ringLimit) s) →
        bad .p1 = .next { s with riu := badOn counted }
          ∧ (isWrongLength f = true → wrong .p1 = .next { s with riu := sentOn true f (turned counted) }))
    ∧ (s.riu.p1Up = true → s.riu.deadline ≠ none → s.riu.ringLoss = false →
        stationField (·.ringLimit) s ≤ counted.missed →
        (∃ t, bad .p1 = .next t ∧ t.riu = badOn { counted with ringLoss := true }
            ∧ ∀ x, hasCause (t.mgdOf x).causes .ring = true)
          ∧ (isWrongLength f = true → ∃ t, wrong .p1 = .next t
              ∧ t.riu = sentOn true f (turned { counted with ringLoss := true })
              ∧ ∀ x, hasCause (t.mgdOf x).causes .ring = true))
    ∧ (s.riu.p2Up = true →
        let out (ok : Bool) := if s.riu.p1Up then some (Sent.mk f ok) else none
        bad .p2 = .next { s with riu := { later with sent1 := out false } }
          ∧ (isWrongLength f = true → wrong .p2 = .next { s with riu := { later with sent1 := out true } }))

/-- R144, R145, R172, R111, R141: a link-check frame at P1: the identity record is written at the place the count names; a part
without address takes the counter's value and enters CONFIG; a full list is marked; a frame of wrong length, and one on its
return pass at P2, go on unaltered. -/
def Obligations.LinkCheckAnswered : Prop :=
  ∀ (s : State) (elapsed : Nat) (f : RingFrame), Settled elapsed s → frameKind f = .linkCheck →
    let later := laterRiu elapsed s
    let counter := headerByte f 1
    let count := (headerByte f 2).toNat
    let atP1 := exec (.linkCheckFrame elapsed .p1 f) s
    let takes := s.riu.station = .unaddressed ∧ 1 ≤ counter.toNat ∧ counter.toNat ≤ 254
    let record (g : RingFrame) (address state : Byte) : Prop :=
      bytesAt g.payload (16 * count) 16
          = [0x31, 0x0E, 0x2E, 0x0A, 1, address, state, 2, 24, 12, 8, 32, 0, 0, 0, 0]
        ∧ ∀ a, (a < 16 * count ∨ 16 * count + 16 ≤ a) → Memory.read g.payload a = Memory.read f.payload a
    let keeps (g : RingFrame) (changed : List Nat) : Prop :=
      (∀ i < 12, i ∉ changed → headerByte g i = headerByte f i)
        ∧ g = { f with header := g.header, payload := g.payload }
    (s.riu.p1Up = true → f.length ≠ 1472 → atP1 = .next { s with riu := sentOn true f later })
    ∧ (s.riu.p1Up = true → f.length = 1472 → 92 ≤ count →
        ∃ g, atP1 = .next { s with riu := sentOn true g later } ∧ g.payload = f.payload ∧ headerByte g 3 = 1
          ∧ keeps g [3])
    ∧ (s.riu.p1Up = true → f.length = 1472 → Memory.wf f.payload = true → count < 92 → ¬ takes →
        ∃ g, atP1 = .next { s with riu := sentOn true g later }
          ∧ record g (s.riu.address.getD 0)
              (match s.riu.station with
                | .unaddressed => 0
                | .config => 1
                | .run => 2)
          ∧ headerByte g 2 = headerByte f 2 + 1 ∧ keeps g [2])
    ∧ (s.riu.p1Up = true → f.length = 1472 → Memory.wf f.payload = true → count < 92 → takes →
        ∃ g, atP1 = .next (raise .b .mode (raise .a .mode
            { s with riu := sentOn true g { later with address := some counter, station := .config } }))
          ∧ record g counter 1
          ∧ headerByte g 1 = counter + 1 ∧ headerByte g 2 = headerByte f 2 + 1 ∧ keeps g [1, 2])
    ∧ (s.riu.p2Up = true → exec (.linkCheckFrame elapsed .p2 f) s = .next { s with
        riu := { later with sent1 := if s.riu.p1Up then some ⟨f, true⟩ else none } })

/-- R136, R138, R139, R141, R142: frames that go on unaltered: an other frame at P1 (discarded while P2's link is down) and at
P2, a cycle frame at P2 that is no return, and a cycle frame at P1 in UNADDRESSED, which realigns the clock alone. That the
frame in flight takes no return pass during ring loss is read from R150 and R169 (log 36). -/
def Obligations.FramesForwardedUnaltered : Prop :=
  ∀ (s : State) (elapsed : Nat) (f : RingFrame), Settled elapsed s →
    let later := laterRiu elapsed s
    let back := { later with sent1 := if s.riu.p1Up then some (Sent.mk f true) else none }
    (frameKind f = .other →
      (s.riu.p1Up = true → exec (.otherFrame elapsed .p1 f) s = .next { s with
        riu := if s.riu.p2Up then { later with sent2 := some ⟨f, true⟩ } else later })
      ∧ (s.riu.p2Up = true → exec (.otherFrame elapsed .p2 f) s = .next { s with riu := back }))
    ∧ (isCycleFrame f = true → s.riu.p2Up = true →
        (s.riu.station = .unaddressed ∨ s.riu.ringLoss = true ∨ ∀ n ∈ s.riu.inFlight, n.number ≠ frameNumber f) →
        ∀ c, exec (.cycleFrameReturn elapsed f c) s = .next { s with riu := back })
    ∧ (isCycleFrame f = true → s.riu.p1Up = true → s.riu.station = .unaddressed → ∀ out c,
        exec (.cycleFrameOutbound elapsed f out c) s = .next { s with
          riu := sentOn true f { later with
            clock := syncTime f, clockAtAlign := syncTime f, frameAtAlign := frameNumber f,
            turned := if s.riu.p2Up then s.riu.turned else min 65535 (s.riu.turned + 1) } })

/-- R152, R136, R141: the power-on reset and its end, and the two link states. During power-on reset, and over a link that is
down, no frame arrives (the second is log 18), and a frame that is not of a command's row is none of its frames (log 1). -/
def Obligations.ResetAndLinks : Prop :=
  (∀ (s : State) (cut1 cut2 : Bool),
    let cut (c : Bool) (l : Option Sent) : Option Sent := l.map (fun f => { f with checkOk := f.checkOk && !c })
    exec (.powerOnReset cut1 cut2) s = .next { State.reset with
      riu := { State.reset.riu with
        inReset := true, p1Up := s.riu.p1Up, p2Up := s.riu.p2Up, sent1 := cut cut1 s.riu.sent1,
        sent2 := cut cut2 s.riu.sent2 },
      pending := s.pending })
  ∧ (∀ s : State, exec .powerOnResetEnd s = .next { s with riu := { s.riu with inReset := false } })
  ∧ (∀ (s : State) (elapsed : Nat) (up : Bool),
    (s.riu.inReset = true →
      exec (.p1LinkChange elapsed up) s = .next { s with riu := { s.riu with p1Up := up } }
        ∧ exec (.p2LinkChange elapsed up) s = .next { s with riu := { s.riu with p2Up := up } })
    ∧ (Settled elapsed s →
      let clock := clockAfter s.riu.clock elapsed
      exec (.p1LinkChange elapsed up) s = .next { s with riu := { s.riu with clock := clock, p1Up := up } }
        ∧ exec (.p2LinkChange elapsed up) s = .next { s with riu := { s.riu with clock := clock, p2Up := up } }))
  ∧ (∀ (s : State) (elapsed : Nat) (port : RingPort) (f : RingFrame) (bFirst : Bool) (out : OutboundChoices)
      (back : PassChoices),
    let closed (p : RingPort) : Prop := s.riu.inReset = true ∨ (p = .p1 ∧ s.riu.p1Up = false) ∨ (p = .p2 ∧ s.riu.p2Up = false)
    (isCycleFrame f = false → exec (.cycleFrameOutbound elapsed f out back) s = .next s
      ∧ exec (.cycleFrameReturn elapsed f back) s = .next s)
    ∧ (isWrongLength f = false → exec (.wrongLengthFrame elapsed port f bFirst) s = .next s)
    ∧ (frameKind f ≠ .linkCheck → exec (.linkCheckFrame elapsed port f) s = .next s)
    ∧ (frameKind f ≠ .other → exec (.otherFrame elapsed port f) s = .next s)
    ∧ (closed .p1 → exec (.cycleFrameOutbound elapsed f out back) s = .next s)
    ∧ (closed .p2 → exec (.cycleFrameReturn elapsed f back) s = .next s)
    ∧ (closed port → exec (.badCheckFrame elapsed port f bFirst) s = .next s
        ∧ exec (.wrongLengthFrame elapsed port f bFirst) s = .next s ∧ exec (.linkCheckFrame elapsed port f) s = .next s
        ∧ exec (.otherFrame elapsed port f) s = .next s))

/-- R138, R139, R142, R149, R151, R154, R156, R114, R172: the outbound pass of a valid cycle frame in CONFIG and RUN with P2's
link up, at a block with nothing due: the clock, the frame in flight, the supervision, the countdowns; the reply owed to an
empty slot, to a request for another station and to an unknown code, a REPORT_LEVEL served, a request that is left to follow
the return pass (log 6); the guard word and the cleared marks, and every other byte as it arrived; for an empty slot, what holds
whatever the world's choices, in a block whose active banks have passed their checks (R127: slots and window stand at multiples
of 4); and R15: a TIP_SET leaves the offset of a mounted tip with the frame in flight (log 23). That the level is bits 0 to 7 of
word 0 is the model's choice (log 11). R154, R156, 10.2: the request slot byte by byte; the pass counts, then takes the slot; and
taking a slot is the row of its code on the slot's target bytes and words, for a TIP_SET once the former offset is kept. -/
def Obligations.OutboundPass : Prop :=
  (∀ (s : State) (elapsed : Nat) (f : RingFrame) (c : PassChoices), Settled elapsed s → InService s →
    s.riu.p1Up = true → s.riu.p2Up = true → isCycleFrame f = true → Memory.wf f.payload = true →
    let w := windowOffset s
    let code := Memory.read f.payload (w + 1)
    let tag := BitVec.ofNat 16 (Memory.readLE f.payload (w + 2) 2)
    let level := (Memory.read f.payload (w + 8)).toNat
    let mine := s.riu.address = some (Memory.read f.payload w)
    let later := { s.riu with
      clock := syncTime f, clockAtAlign := syncTime f, frameAtAlign := frameNumber f,
      inFlight := some ⟨frameNumber f, syncTime f, w, ⟨none, none⟩⟩, missed := 0,
      deadline := s.riu.deadline.map (fun _ => clockAfter (syncTime f) (3 * periodNs s / 2)), ringLoss := false,
      sent1 := none }
    let evuAfter := if s.riu.ringLoss then (post .ring .ringRestored s).evu else s.evu
    let slot := readRequest f.payload w
    let counted (t : State) : Prop :=
      (∀ x, t.tcuOf x = { s.tcuOf x with trigger := match triggerOf s x with
            | .rearm n => .rearm (n - 1)
            | other => other })
      ∧ (∀ x, t.thuOf x = { s.thuOf x with countdown :=
            if s.riu.station = .run then (s.thuOf x).countdown.map (fun n => n - 1) else (s.thuOf x).countdown })
      ∧ (∀ x, t.pccOf x = { s.pccOf x with
          session := if inStep (sessionOf s x) then { sessionOf s x with timer := (sessionOf s x).timer.map (· - 1) }
            else sessionOf s x })
      ∧ (∀ k, t.tbsOf k = { s.tbsOf k with state := match (s.tbsOf k).state with
            | .checking e left _ => .checking e left false
            | other => other })
      ∧ t.cen = s.cen ∧ t.mgd = s.mgd ∧ t.thu = { s.thu with arm := t.thu.arm } ∧ t.tcu = { s.tcu with arm := t.tcu.arm }
      ∧ t.pcc = { s.pcc with arm := t.pcc.arm } ∧ t.pending = s.pending
    let leaves (late : Bool) (result : Option Result) (data : List Word) (level : Nat) : Prop :=
      ∃ t g, exec (.cycleFrameOutbound elapsed f ⟨false, late, []⟩ c) s = .next t
        ∧ t.riu = { later with sent2 := some ⟨g, true⟩ }
        ∧ t.rqu = ⟨⟨tag, code, result, data⟩, if late then some slot else none⟩
        ∧ t.evu = { evuAfter with reportLevel := level }
        ∧ counted t
        ∧ g = { f with payload := g.payload }
        ∧ (∀ a, Memory.read g.payload a =
            if a ∈ (((activeBank .slotMap s).map slotEntries).getD []).map (·.2) then 0
            else if a = w + 32 then
              (if (s.mgdOf .a).causes ≠ 0 then 1 else 0) + (if (s.mgdOf .a).creep ≠ 0 then 2 else 0)
                + (if (s.mgdOf .b).causes ≠ 0 then 4 else 0) + (if (s.mgdOf .b).creep ≠ 0 then 8 else 0)
            else if w + 32 < a ∧ a < w + 36 then 0 else Memory.read f.payload a)
    let passes := leaves false
    let begun (u : State) : Prop :=
      u.riu = later ∧ u.rqu = ⟨⟨tag, code, none, []⟩, none⟩ ∧ u.evu = evuAfter ∧ counted u
    let word (a : Nat) : Word := BitVec.ofNat 32 (Memory.readLE f.payload (w + a) 4)
    slot = ⟨Memory.read f.payload w, code, tag, Memory.read f.payload (w + 4), Memory.read f.payload (w + 5),
        Memory.read f.payload (w + 6), Memory.read f.payload (w + 7),
        ⟨word 8, word 12, word 16, word 20, word 24, word 28⟩⟩
    ∧ (∃ u g, begun u ∧ g = { f with payload := g.payload }
        ∧ exec (.cycleFrameOutbound elapsed f ⟨false, false, []⟩ c) s = .next
          { takeRequest slot u with riu := { (takeRequest slot u).riu with sent2 := some ⟨g, true⟩ } })
    ∧ (code = 0 → passes none [] s.evu.reportLevel)
    ∧ (code ≠ 0 → mayFollowPass slot = true → leaves true none [] s.evu.reportLevel)
    ∧ (code = 0 → BanksSound s → ∀ out, ∃ t g, exec (.cycleFrameOutbound elapsed f out c) s = .next t
        ∧ t.riu = { later with sent2 := some ⟨g, true⟩ } ∧ t.rqu = ⟨⟨tag, code, none, []⟩, none⟩ ∧ t.pending = s.pending
        ∧ g = { f with payload := g.payload }
        ∧ ∀ a, (a < w + 32 ∨ w + 36 ≤ a) → a ∉ (((activeBank .slotMap s).map slotEntries).getD []).map (·.2) →
            Memory.read g.payload a = Memory.read f.payload a)
    ∧ (code ≠ 0 → ¬ mine → passes (some .wrongStation) [] s.evu.reportLevel)
    ∧ (code ≠ 0 → mine → (∀ q, requestByte q ≠ code) → passes (some .unknownCode) [] s.evu.reportLevel)
    ∧ (mine → code = 0x51 → 7 < level → passes (some .badParam) [] s.evu.reportLevel)
    ∧ (mine → code = 0x51 → level ≤ 7 →
        passes (some .done) [BitVec.ofNat 32 s.evu.reportLevel, BitVec.ofNat 32 level] level)
    ∧ (mine → code = 0x20 →
        let tip := (Memory.read f.payload (w + 4)).toNat
        let kept (x : Arm) : Option FormerOffset :=
          if mountedTip s x = some tip then some ⟨tip, (tipOf s tip).offset⟩ else none
        ∃ t g, exec (.cycleFrameOutbound elapsed f ⟨false, false, []⟩ c) s = .next t
          ∧ t.riu = { later with
              inFlight := some ⟨frameNumber f, syncTime f, w, ⟨kept .a, kept .b⟩⟩, sent2 := some ⟨g, true⟩ }))
  ∧ (∀ (s : State) (r : RequestSlot),
    let p := r.params
    let offset := BitVec.ofNat 16 (r.third.toNat + 256 * r.fourth.toNat)
    let taken := takeRequest r s
    let former (x : Arm) : Option FormerOffset :=
      if mountedTip s x = some r.target.toNat then some ⟨r.target.toNat, (tipOf s r.target.toNat).offset⟩ else none
    let kept := { s with riu := { s.riu with
      inFlight := s.riu.inFlight.map (fun n => { n with former := ⟨former .a, former .b⟩ }) } }
    (r.code = 0 → taken = s)
    ∧ (r.code ≠ 0 → s.riu.address ≠ some r.address → taken = withReply r.code ⟨.wrongStation, []⟩ s)
    ∧ (r.code ≠ 0 → s.riu.address = some r.address → (∀ q, requestByte q ≠ r.code) →
        taken = withReply r.code ⟨.unknownCode, []⟩ s)
    ∧ (s.riu.address = some r.address →
      let is (code : Byte) (row : Instr) : Prop := r.code = code → exec row s = .next taken
      is 0x01 (.stationMode p.w0) ∧ is 0x02 .stationReset ∧ is 0x03 (.statusRead r.target r.second r.third)
      ∧ is 0x10 (.tableWrite r.target r.second offset p) ∧ is 0x11 (.tableClear r.target)
      ∧ is 0x12 (.tableCheck r.target p.w0) ∧ is 0x13 (.tableActivate r.target)
      ∧ is 0x14 (.tableRead r.target r.second offset)
      ∧ (r.code = 0x20 → exec (.tipSet r.target p) kept = .next taken)
      ∧ is 0x21 (.tipRemove r.target) ∧ is 0x22 (.portSet r.target p.w0 p.w1) ∧ is 0x23 (.armTipSet r.target p.w0)
      ∧ is 0x30 (.triggerArm r.target) ∧ is 0x31 (.triggerDisarm r.target) ∧ is 0x32 (.featureOpen r.target)
      ∧ is 0x33 (.featureClose r.target) ∧ is 0x34 (.workpieceSet p) ∧ is 0x35 .workpieceClear
      ∧ is 0x38 (.thermalAdvance r.target) ∧ is 0x40 (.zoneClaim r.target r.second)
      ∧ is 0x41 (.zoneRelease r.target r.second) ∧ is 0x42 (.holdRelease r.target p.w0)
      ∧ is 0x48 (.changeBegin r.target p.w0 p.w1) ∧ is 0x49 (.changeAbort r.target)
      ∧ is 0x50 (.eventPriority r.target p.w0) ∧ is 0x51 (.reportLevel p.w0)))
  ∧ armByte .a = 0 ∧ armByte .b = 1

/-- R139, R141, R155: with P2's link down the outbound and the return pass of a cycle frame follow at once: the frame is counted
as turned around, is not in flight, and leaves at P1 with its reply; in RUN no arm sample is valid, and no temperature, probe or
rack reading is taken (R27, R79). The STATION RECORD is in force from the pass on (log 26). The active banks have passed their
content rules (R127), so that the frame has at most the two point slots of the window. -/
def Obligations.LoopBackPass : Prop :=
  ∀ (s : State) (elapsed : Nat) (f : RingFrame) (c : PassChoices), Settled elapsed s → InService s → BanksSound s →
    s.riu.p1Up = true → s.riu.p2Up = false → isCycleFrame f = true → Memory.wf f.payload = true →
    let w := windowOffset s
    Memory.read f.payload (w + 1) = 0 →
    ∃ t g, exec (.cycleFrameOutbound elapsed f ⟨false, false, []⟩ c) s = .next t
      ∧ t.riu = { s.riu with
          clock := syncTime f, clockAtAlign := syncTime f, frameAtAlign := frameNumber f, inFlight := none, missed := 0,
          deadline := s.riu.deadline.map (fun _ => clockAfter (syncTime f) (3 * periodNs s / 2)), ringLoss := false,
          turned := min 65535 (s.riu.turned + 1), record := activeBank .stationRecord s, sent1 := some ⟨g, true⟩,
          sent2 := none }
      ∧ t.rqu = ⟨⟨BitVec.ofNat 16 (Memory.readLE f.payload (w + 2) 2), 0, none, []⟩, none⟩
      ∧ (s.riu.station = .run → ∀ x, activeBank (.armMap x) s ≠ none →
          (t.cenOf x).reader = true ∧ hasCause (t.mgdOf x).causes .reader = true)
      ∧ (s.thu.restart = false → t.thu.channels = s.thu.channels) ∧ t.pcc.occupancy = s.pcc.occupancy
      ∧ (∀ x, (t.pccOf x).headLast = (s.pccOf x).headLast ∧ (t.pccOf x).codeLast = (s.pccOf x).codeLast)
      ∧ g = { f with payload := g.payload }
      ∧ Memory.read g.payload (w + 36) = s.riu.address.getD 0 ∧ Memory.read g.payload (w + 37) = 0
      ∧ (∀ a, (a < w + 32 ∨ w + 240 ≤ a) → a ∉ (((activeBank .slotMap s).map slotEntries).getD []).map (·.2) →
          Memory.read g.payload a = Memory.read f.payload a)
      ∧ t.pending = s.pending

/-- R138, R140, R155, R172: the return pass of the frame in flight, whatever the world's choices: the record is cleared, the
reply slot carries the exchange of the frame's request, and no byte outside the window's written part changes. During ring
loss there is none (log 36); the STATION RECORD is in force from the pass on (R133; log 26). The active banks have passed their
content rules (R127), so that the frame has at most the two point slots of the window. -/
def Obligations.ReturnPassReplies : Prop :=
  ∀ (s : State) (elapsed : Nat) (f : RingFrame) (c : PassChoices) (n : InFlight), Settled elapsed s → InService s →
    BanksSound s → s.riu.p2Up = true → isCycleFrame f = true → Memory.wf f.payload = true → s.riu.inFlight = some n →
    n.number = frameNumber f → s.riu.ringLoss = false →
    let later := { laterRiu elapsed s with inFlight := none, record := activeBank .stationRecord s }
    let o := n.window + 36
    let e := s.rqu.exchange
    (s.riu.p1Up = false → ∃ t, exec (.cycleFrameReturn elapsed f c) s = .next t ∧ t.riu = later ∧ t.rqu = s.rqu)
    ∧ (s.riu.p1Up = true → ∃ t g, exec (.cycleFrameReturn elapsed f c) s = .next t
      ∧ t.riu = { later with sent1 := some ⟨g, true⟩ } ∧ t.rqu = s.rqu ∧ t.pending = s.pending
      ∧ t.tcu.workpiece = s.tcu.workpiece
      ∧ g = { f with payload := g.payload }
      ∧ (Memory.read g.payload o = s.riu.address.getD 0 ∧ Memory.read g.payload (o + 1) = e.code
            ∧ Memory.readLE g.payload (o + 2) 2 = e.tag.toNat
            ∧ Memory.read g.payload (o + 4) = (match e.result with
                | none => 0
                | some .done => 1
                | some .accepted => 2
                | some .busy => 3
                | some .wrongState => 4
                | some .badParam => 5
                | some .notReady => 6
                | some .deadlock => 7
                | some .refused => 8
                | some .wrongStation => 9
                | some .unknownCode => 10)
            ∧ Memory.readLE g.payload (o + 5) 3 = 0
            ∧ (∀ i < 16, payloadWord g.payload (o + 8 + 4 * i) = e.data.getD i 0))
      ∧ ∀ a, (a < n.window + 36 ∨ n.window + 240 ≤ a) → Memory.read g.payload a = Memory.read f.payload a)

/-- R2, R4, R5, R15, R22 to R24, R26, R51, R55: what a return pass, its parts in the default order (log 5), gives for an arm: the
position block in the off form, for an invalid sample and for a valid one, the tip history, the reader and the limit
conditions, the latch; R67, R172: its empty point slots and its drain; and the whole pass as its parts one after the other.
R19, R20: the onsets of saturation and of the range condition; R22: the soft limits; R4: the onset of the reader. The offset
before a TIP_SET of the frame is log 23, the record in force log 26, the mark of a due step log 2. R3, 10.4: what an arm sample
slot holds, byte by byte, its tests in the order of R3. -/
def Obligations.PositionBlocks : Prop :=
  (∀ (s : State) (elapsed : Nat) (f : RingFrame) (channels aggregates ports : List Nat) (n : InFlight),
    Settled elapsed s → InService s → s.riu.p1Up = true → s.riu.p2Up = true → isCycleFrame f = true →
    Memory.wf f.payload = true → s.riu.inFlight = some n → n.number = frameNumber f → s.riu.ringLoss = false →
    let mode : Rounding := match stationRecord s with
      | some r => r.rounding
      | none => .nearestEven
    let limit := activeField (·.latchLimit) s
    ∃ t g, exec (.cycleFrameReturn elapsed f ⟨[], channels, aggregates, ports⟩) s = .next t
      ∧ t.riu.sent1 = some ⟨g, true⟩
      ∧ t = defaultPass n f channels aggregates ports { s with riu := laterRiu elapsed s }
      ∧ (if activeBank .stationRecord s = none then
          t.tcu.drainDue = none ∧ ∀ a, n.window + 176 ≤ a → a < n.window + 240 → Memory.read g.payload a = Memory.read f.payload a
        else t.tcu.drainDue = some n.window
          ∧ ∀ i < 2, bytesAt g.payload (n.window + 176 + 32 * i) 32 = 255 :: List.replicate 31 0)
      ∧ t.tcu.queue = s.tcu.queue
      ∧ ∀ x : Arm,
        let applied := (s.thuOf x).applied
        let sample := readSample (activeBank .slotMap s) f.payload x
        let o := n.window + windowPosition x
        let block (pos : Vec3) (capture : BitVec 64) (flags : BitVec 6) : Prop :=
          intAt g.payload o = pos.x ∧ intAt g.payload (o + 4) = pos.y ∧ intAt g.payload (o + 8) = pos.z
            ∧ Memory.readLE g.payload (o + 12) 8 = capture.toNat ∧ Memory.readLE g.payload (o + 20) 2 = applied.epoch.toNat
            ∧ Memory.readLE g.payload (o + 22) 2 = flags.toNat
        let aged : TcuArm := match triggerOf s x with
          | .latched l => { s.tcuOf x with
              trigger := .latched { l with age := l.age + 1 }, touchDue := if limit ≤ l.age + 1 then .late else .none }
          | _ => s.tcuOf x
        (s.riu.station = .config ∨ activeBank (.armMap x) s = none →
          block ⟨0, 0, 0⟩ 0 0 ∧ (t.cenOf x).history = (s.cenOf x).history ∧ (t.cenOf x).reader = (s.cenOf x).reader
            ∧ t.tcuOf x = if s.riu.station = .config then s.tcuOf x else aged)
        ∧ (∀ m r capture, s.riu.station = .run → activeBank (.armMap x) s = some m → sample = .invalid r capture →
          block ⟨0, 0, 0⟩ capture 0 ∧ (t.cenOf x).history = (s.cenOf x).history ∧ (t.cenOf x).reader = true
            ∧ hasCause (t.mgdOf x).causes .reader = true ∧ t.tcuOf x = aged)
        ∧ (∀ m v, s.riu.station = .run → activeBank (.armMap x) s = some m → sample = .valid v →
          let offset : Vec3 := match mountedTip s x with
            | none => ⟨0, 0, 0⟩
            | some u => match (n.former.get x).filter (fun k => decide (k.tip = u)) with
              | some k => k.offset
              | none => (tipOf s u).offset
          let r := chain m applied offset mode v.counts
          let flags := positionFlags true (decide (r.beyond ≠ 0)) (decide (r.saturated ≠ 0)) (mountedTip s x).isNone
            (applied.scaleX.stale || applied.scaleY.stale || applied.scaleZ.stale)
            (applied.scaleX.clamp || applied.scaleY.clamp || applied.scaleZ.clamp)
          let entry : HistoryEntry :=
            ⟨r.t, v.capture, flags, mountedRef s x, (s.tbsOf (.armMap x)).generation, applied.epoch⟩
          let kept := (s.cenOf x).history.filter (fun o => decide (o.generation = entry.generation))
          let newer := ∀ o ∈ kept.getLast?, o.capture.toNat < v.capture.toNat
          block r.out v.capture flags ∧ (t.cenOf x).reader = false ∧ (t.cenOf x).limit = limitCondition m r.g
            ∧ (t.cenOf x).history = (if newer then (kept ++ [entry]).rtake 4 else kept)
            ∧ (∀ l, triggerOf s x = .latched l → newer → l.contact ≤ (v.capture.toNat : Int) →
                t.tcuOf x = { s.tcuOf x with touchDue := .resolve })
            ∧ (¬ newer ∨ (∀ l, triggerOf s x = .latched l → (v.capture.toNat : Int) < l.contact) → t.tcuOf x = aged)))
  ∧ (∀ (s : State) (x : Arm) (sat beyond : BitVec 3),
    let t := numericOnset x sat beyond s
    let c := s.cenOf x
    let onSat := decide (sat ≠ 0) && !c.satSeen
    let onBeyond := decide (beyond ≠ 0) && !c.rangeSeen
    t.cenOf x = { c with satSeen := c.satSeen || decide (sat ≠ 0), rangeSeen := c.rangeSeen || decide (beyond ≠ 0) }
      ∧ t.evu = (if onSat || onBeyond then
          post .numeric (.numeric x onSat onBeyond (if onSat then sat else 0) (if onBeyond then beyond else 0)) s else s).evu
      ∧ (∀ k, hasCause (t.mgdOf x).causes k = true ↔ hasCause (s.mgdOf x).causes k = true
          ∨ (k = .numeric ∧ onSat = true ∧ MaskHas s x 0) ∨ (k = .mapRange ∧ onBeyond = true ∧ MaskHas s x 1))
      ∧ t.mgdOf x = { s.mgdOf x with causes := (t.mgdOf x).causes }
      ∧ t.cenOf (otherArm x) = s.cenOf (otherArm x) ∧ t.mgdOf (otherArm x) = s.mgdOf (otherArm x)
      ∧ t = { s with cen := t.cen, evu := t.evu, mgd := { s.mgd with arm := t.mgd.arm } })
  ∧ (∀ (s : State) (x : Arm) (b : Bank) (g : Vec3),
    let t := softLimits x b g s
    let now := (t.cenOf x).limit
    let onset := (s.cenOf x).limit = 0 ∧ now ≠ 0
    let low (i : Nat) (p : Int) : Bool := decide (p < word40 b (11 * i + 4))
    let high (i : Nat) (p : Int) : Bool := decide (word40 b (11 * i + 6) < p)
    now.getLsbD 0 = low 0 g.x ∧ now.getLsbD 1 = high 0 g.x ∧ now.getLsbD 2 = low 1 g.y ∧ now.getLsbD 3 = high 1 g.y
      ∧ now.getLsbD 4 = low 2 g.z ∧ now.getLsbD 5 = high 2 g.z ∧ now = limitCondition b g
      ∧ (¬ onset → t = s.onCen x (fun c => { c with limit := now }))
      ∧ (onset → t = (if hasCreepLimit (s.mgdOf x).creep then id else raise x .limit)
          (post (.limit x) (.limits now) (s.onCen x (fun c => { c with limit := now })))))
  ∧ (∀ (s : State) (x : Arm) (r : ReaderReason) (capture : BitVec 64),
    let held := raise x .reader (s.onCen x (fun c => { c with reader := true }))
    (correctInvalid x r capture s).state
      = resolutionStep x none (if (s.cenOf x).reader then held else post (.reader x) (.reader r) held))
  ∧ (∀ (s : State) (p : Memory 8) (x : Arm),
    let sample := readSample (activeBank .slotMap s) p x
    let which : Nat := match x with
      | .a => 0
      | .b => 1
    ((∀ off, ¬ SlotAt s 1 which off) → sample = .invalid .noSlot 0)
    ∧ ∀ off, SlotAt s 1 which off →
      let status := Memory.read p (off + 1)
      let capture := BitVec.ofNat 64 (Memory.readLE p (off + 16) 8)
      (¬ marked p off → sample = .invalid .notWritten 0)
      ∧ (marked p off → status = 0 → sample = .valid ⟨⟨intAt p (off + 4), intAt p (off + 8), intAt p (off + 12)⟩, capture⟩)
      ∧ (marked p off → status = 2 → sample = .invalid .notReferenced capture)
      ∧ (marked p off → status ≠ 0 → status ≠ 2 → sample = .invalid .scaleFault capture))
end

