-- ==== Sys2Proof/Laws/Touches.lean ====
section
/-! SUPPORT. What an operation may change, said once: the blocks it touches. Every other block, and the queue of waiting
commands, is as it was. -/
namespace Sys2Proof.Laws

open Sys2Proof.Machine

/-- The blocks of the state. -/
inductive Block
  | riu
  | rqu
  | tbs
  | cen
  | thu
  | tcu
  | pcc
  | mgd
  | evu
deriving DecidableEq, Repr

/-- `t` differs from `s` in the blocks named at most, and holds the same queue. -/
structure Touches (bs : List Block) (s t : State) : Prop where
  riu     : Block.riu ∉ bs → t.riu = s.riu
  rqu     : Block.rqu ∉ bs → t.rqu = s.rqu
  tbs     : Block.tbs ∉ bs → t.tbs = s.tbs
  cen     : Block.cen ∉ bs → t.cen = s.cen
  thu     : Block.thu ∉ bs → t.thu = s.thu
  tcu     : Block.tcu ∉ bs → t.tcu = s.tcu
  pcc     : Block.pcc ∉ bs → t.pcc = s.pcc
  mgd     : Block.mgd ∉ bs → t.mgd = s.mgd
  evu     : Block.evu ∉ bs → t.evu = s.evu
  pending : t.pending = s.pending

@[simp] theorem Touches.refl (bs : List Block) (s : State) : Touches bs s s :=
  ⟨fun _ => rfl, fun _ => rfl, fun _ => rfl, fun _ => rfl, fun _ => rfl, fun _ => rfl, fun _ => rfl, fun _ => rfl,
   fun _ => rfl, rfl⟩

theorem Touches.mono {b1 bs : List Block} {s t : State} (h : Touches b1 s t) (hb : b1 ⊆ bs) : Touches bs s t :=
  ⟨fun n => h.riu (fun m => n (hb m)), fun n => h.rqu (fun m => n (hb m)), fun n => h.tbs (fun m => n (hb m)),
   fun n => h.cen (fun m => n (hb m)), fun n => h.thu (fun m => n (hb m)), fun n => h.tcu (fun m => n (hb m)),
   fun n => h.pcc (fun m => n (hb m)), fun n => h.mgd (fun m => n (hb m)), fun n => h.evu (fun m => n (hb m)), h.pending⟩

theorem Touches.trans {bs : List Block} {s t u : State} (h1 : Touches bs s t) (h2 : Touches bs t u) : Touches bs s u :=
  ⟨fun n => (h2.riu n).trans (h1.riu n), fun n => (h2.rqu n).trans (h1.rqu n), fun n => (h2.tbs n).trans (h1.tbs n),
   fun n => (h2.cen n).trans (h1.cen n), fun n => (h2.thu n).trans (h1.thu n), fun n => (h2.tcu n).trans (h1.tcu n),
   fun n => (h2.pcc n).trans (h1.pcc n), fun n => (h2.mgd n).trans (h1.mgd n), fun n => (h2.evu n).trans (h1.evu n),
   h2.pending.trans h1.pending⟩

theorem Touches.symm {bs : List Block} {s t : State} (h : Touches bs s t) : Touches bs t s :=
  ⟨fun n => (h.riu n).symm, fun n => (h.rqu n).symm, fun n => (h.tbs n).symm, fun n => (h.cen n).symm,
   fun n => (h.thu n).symm, fun n => (h.tcu n).symm, fun n => (h.pcc n).symm, fun n => (h.mgd n).symm,
   fun n => (h.evu n).symm, h.pending.symm⟩

/-- A change within the blocks makes no difference. -/
theorem Touches.iff {bs : List Block} {s t u : State} (h : Touches bs u t) : Touches bs s t ↔ Touches bs s u :=
  ⟨fun k => k.trans h.symm, fun k => k.trans h⟩

end Sys2Proof.Laws
end

