-- ==== Sys2Proof/Laws/Frames.lean ====
section
/-! SUPPORT. For each shared operation, the blocks it may touch: applied to a state that differs from `s` in the blocks
`bs` at most, it gives such a state again, when `bs` holds the operation's own blocks. -/
namespace Sys2Proof.Laws

open Sys2Proof.Machine

@[simp] theorem with_riu_touches {bs : List Block} {s u : State} {v : Riu}
    (hriu : Block.riu ∈ bs) : Touches bs s { u with riu := v } ↔ Touches bs s u := Touches.iff ⟨fun n => absurd hriu n, fun _ => rfl, fun _ => rfl, fun _ => rfl, fun _ => rfl, fun _ => rfl, fun _ => rfl, fun _ => rfl, fun _ => rfl, rfl⟩

@[simp] theorem with_rqu_touches {bs : List Block} {s u : State} {v : Rqu}
    (hrqu : Block.rqu ∈ bs) : Touches bs s { u with rqu := v } ↔ Touches bs s u := Touches.iff ⟨fun _ => rfl, fun n => absurd hrqu n, fun _ => rfl, fun _ => rfl, fun _ => rfl, fun _ => rfl, fun _ => rfl, fun _ => rfl, fun _ => rfl, rfl⟩

@[simp] theorem with_tbs_touches {bs : List Block} {s u : State} {v : PerKind TableState}
    (htbs : Block.tbs ∈ bs) : Touches bs s { u with tbs := v } ↔ Touches bs s u := Touches.iff ⟨fun _ => rfl, fun _ => rfl, fun n => absurd htbs n, fun _ => rfl, fun _ => rfl, fun _ => rfl, fun _ => rfl, fun _ => rfl, fun _ => rfl, rfl⟩

@[simp] theorem with_cen_touches {bs : List Block} {s u : State} {v : PerArm CenArm}
    (hcen : Block.cen ∈ bs) : Touches bs s { u with cen := v } ↔ Touches bs s u := Touches.iff ⟨fun _ => rfl, fun _ => rfl, fun _ => rfl, fun n => absurd hcen n, fun _ => rfl, fun _ => rfl, fun _ => rfl, fun _ => rfl, fun _ => rfl, rfl⟩

@[simp] theorem with_thu_touches {bs : List Block} {s u : State} {v : Thu}
    (hthu : Block.thu ∈ bs) : Touches bs s { u with thu := v } ↔ Touches bs s u := Touches.iff ⟨fun _ => rfl, fun _ => rfl, fun _ => rfl, fun _ => rfl, fun n => absurd hthu n, fun _ => rfl, fun _ => rfl, fun _ => rfl, fun _ => rfl, rfl⟩

@[simp] theorem with_tcu_touches {bs : List Block} {s u : State} {v : Tcu}
    (htcu : Block.tcu ∈ bs) : Touches bs s { u with tcu := v } ↔ Touches bs s u := Touches.iff ⟨fun _ => rfl, fun _ => rfl, fun _ => rfl, fun _ => rfl, fun _ => rfl, fun n => absurd htcu n, fun _ => rfl, fun _ => rfl, fun _ => rfl, rfl⟩

@[simp] theorem with_pcc_touches {bs : List Block} {s u : State} {v : Pcc}
    (hpcc : Block.pcc ∈ bs) : Touches bs s { u with pcc := v } ↔ Touches bs s u := Touches.iff ⟨fun _ => rfl, fun _ => rfl, fun _ => rfl, fun _ => rfl, fun _ => rfl, fun _ => rfl, fun n => absurd hpcc n, fun _ => rfl, fun _ => rfl, rfl⟩

@[simp] theorem with_mgd_touches {bs : List Block} {s u : State} {v : Mgd}
    (hmgd : Block.mgd ∈ bs) : Touches bs s { u with mgd := v } ↔ Touches bs s u := Touches.iff ⟨fun _ => rfl, fun _ => rfl, fun _ => rfl, fun _ => rfl, fun _ => rfl, fun _ => rfl, fun _ => rfl, fun n => absurd hmgd n, fun _ => rfl, rfl⟩

@[simp] theorem with_evu_touches {bs : List Block} {s u : State} {v : Evu}
    (hevu : Block.evu ∈ bs) : Touches bs s { u with evu := v } ↔ Touches bs s u := Touches.iff ⟨fun _ => rfl, fun _ => rfl, fun _ => rfl, fun _ => rfl, fun _ => rfl, fun _ => rfl, fun _ => rfl, fun _ => rfl, fun n => absurd hevu n, rfl⟩

@[simp] theorem onCen_touches {bs : List Block} {s u : State} (x : Arm) (f : CenArm → CenArm)
    (hcen : Block.cen ∈ bs) :
    Touches bs s (u.onCen x f) ↔ Touches bs s u := Touches.iff ⟨fun _ => rfl, fun _ => rfl, fun _ => rfl, fun n => absurd hcen n, fun _ => rfl, fun _ => rfl, fun _ => rfl, fun _ => rfl, fun _ => rfl, rfl⟩

@[simp] theorem onThu_touches {bs : List Block} {s u : State} (x : Arm) (f : ThuArm → ThuArm)
    (hthu : Block.thu ∈ bs) :
    Touches bs s (u.onThu x f) ↔ Touches bs s u := Touches.iff ⟨fun _ => rfl, fun _ => rfl, fun _ => rfl, fun _ => rfl, fun n => absurd hthu n, fun _ => rfl, fun _ => rfl, fun _ => rfl, fun _ => rfl, rfl⟩

@[simp] theorem onTcu_touches {bs : List Block} {s u : State} (x : Arm) (f : TcuArm → TcuArm)
    (htcu : Block.tcu ∈ bs) :
    Touches bs s (u.onTcu x f) ↔ Touches bs s u := Touches.iff ⟨fun _ => rfl, fun _ => rfl, fun _ => rfl, fun _ => rfl, fun _ => rfl, fun n => absurd htcu n, fun _ => rfl, fun _ => rfl, fun _ => rfl, rfl⟩

@[simp] theorem onPcc_touches {bs : List Block} {s u : State} (x : Arm) (f : PccArm → PccArm)
    (hpcc : Block.pcc ∈ bs) :
    Touches bs s (u.onPcc x f) ↔ Touches bs s u := Touches.iff ⟨fun _ => rfl, fun _ => rfl, fun _ => rfl, fun _ => rfl, fun _ => rfl, fun _ => rfl, fun n => absurd hpcc n, fun _ => rfl, fun _ => rfl, rfl⟩

@[simp] theorem onMgd_touches {bs : List Block} {s u : State} (x : Arm) (f : MgdArm → MgdArm)
    (hmgd : Block.mgd ∈ bs) :
    Touches bs s (u.onMgd x f) ↔ Touches bs s u := Touches.iff ⟨fun _ => rfl, fun _ => rfl, fun _ => rfl, fun _ => rfl, fun _ => rfl, fun _ => rfl, fun _ => rfl, fun n => absurd hmgd n, fun _ => rfl, rfl⟩

@[simp] theorem onTbs_touches {bs : List Block} {s u : State} (k : TableKind) (f : TableState → TableState)
    (htbs : Block.tbs ∈ bs) :
    Touches bs s (u.onTbs k f) ↔ Touches bs s u := Touches.iff ⟨fun _ => rfl, fun _ => rfl, fun n => absurd htbs n, fun _ => rfl, fun _ => rfl, fun _ => rfl, fun _ => rfl, fun _ => rfl, fun _ => rfl, rfl⟩

@[simp] theorem post_touches {bs : List Block} {s u : State} (src : EventSource) (d : Detail)
    (hevu : Block.evu ∈ bs) :
    Touches bs s (post src d u) ↔ Touches bs s u := Touches.iff ⟨fun _ => rfl, fun _ => rfl, fun _ => rfl, fun _ => rfl, fun _ => rfl, fun _ => rfl, fun _ => rfl, fun _ => rfl, fun n => absurd hevu n, rfl⟩

@[simp] theorem raise_touches {bs : List Block} {s u : State} (x : Arm) (c : Cause)
    (hmgd : Block.mgd ∈ bs) :
    Touches bs s (raise x c u) ↔ Touches bs s u := Touches.iff ⟨fun _ => rfl, fun _ => rfl, fun _ => rfl, fun _ => rfl, fun _ => rfl, fun _ => rfl, fun _ => rfl, fun n => absurd hmgd n, fun _ => rfl, rfl⟩

@[simp] theorem raiseMasked_touches {bs : List Block} {s u : State} (x : Arm) (m : MaskBit) (c : Cause)
    (hmgd : Block.mgd ∈ bs) :
    Touches bs s (raiseMasked x m c u) ↔ Touches bs s u := by
  unfold raiseMasked
  try dsimp only
  (repeat' split) <;> simp [*]

@[simp] theorem onTip_touches {bs : List Block} {s u : State} (t : Nat) (f : Tip → Tip)
    (hpcc : Block.pcc ∈ bs) :
    Touches bs s (onTip t f u) ↔ Touches bs s u := Touches.iff ⟨fun _ => rfl, fun _ => rfl, fun _ => rfl, fun _ => rfl, fun _ => rfl, fun _ => rfl, fun n => absurd hpcc n, fun _ => rfl, fun _ => rfl, rfl⟩

@[simp] theorem moveTip_touches {bs : List Block} {s u : State} (t : Nat) (l : TipLocation)
    (hpcc : Block.pcc ∈ bs) :
    Touches bs s (moveTip t l u) ↔ Touches bs s u := Touches.iff ⟨fun _ => rfl, fun _ => rfl, fun _ => rfl, fun _ => rfl, fun _ => rfl, fun _ => rfl, fun n => absurd hpcc n, fun _ => rfl, fun _ => rfl, rfl⟩

@[simp] theorem setPort_touches {bs : List Block} {s u : State} (p : Nat) (v : PortState)
    (hpcc : Block.pcc ∈ bs) :
    Touches bs s (setPort p v u) ↔ Touches bs s u := Touches.iff ⟨fun _ => rfl, fun _ => rfl, fun _ => rfl, fun _ => rfl, fun _ => rfl, fun _ => rfl, fun n => absurd hpcc n, fun _ => rfl, fun _ => rfl, rfl⟩

@[simp] theorem onSession_touches {bs : List Block} {s u : State} (x : Arm) (f : Session → Session)
    (hpcc : Block.pcc ∈ bs) :
    Touches bs s (onSession x f u) ↔ Touches bs s u := Touches.iff ⟨fun _ => rfl, fun _ => rfl, fun _ => rfl, fun _ => rfl, fun _ => rfl, fun _ => rfl, fun n => absurd hpcc n, fun _ => rfl, fun _ => rfl, rfl⟩

@[simp] theorem setTrigger_touches {bs : List Block} {s u : State} (x : Arm) (t : Trigger)
    (htcu : Block.tcu ∈ bs) :
    Touches bs s (setTrigger x t u) ↔ Touches bs s u := Touches.iff ⟨fun _ => rfl, fun _ => rfl, fun _ => rfl, fun _ => rfl, fun _ => rfl, fun n => absurd htcu n, fun _ => rfl, fun _ => rfl, fun _ => rfl, rfl⟩

@[simp] theorem onTrigger_touches {bs : List Block} {s u : State} (x : Arm) (f : Trigger → Trigger)
    (htcu : Block.tcu ∈ bs) :
    Touches bs s (onTrigger x f u) ↔ Touches bs s u := Touches.iff ⟨fun _ => rfl, fun _ => rfl, fun _ => rfl, fun _ => rfl, fun _ => rfl, fun n => absurd htcu n, fun _ => rfl, fun _ => rfl, fun _ => rfl, rfl⟩

@[simp] theorem ageLatch_touches {bs : List Block} {s u : State} (x : Arm) 
    (htcu : Block.tcu ∈ bs) :
    Touches bs s (ageLatch x u) ↔ Touches bs s u := by
  unfold ageLatch
  try dsimp only
  (repeat' split) <;> simp [*]

@[simp] theorem emptyHistory_touches {bs : List Block} {s u : State} (x : Arm) 
    (hcen : Block.cen ∈ bs) (htcu : Block.tcu ∈ bs) :
    Touches bs s (emptyHistory x u) ↔ Touches bs s u := by
  unfold emptyHistory
  try dsimp only
  (repeat' split) <;> simp [*]

@[simp] theorem setZone_touches {bs : List Block} {s u : State} (z : Nat) (v : Zone)
    (hmgd : Block.mgd ∈ bs) :
    Touches bs s (setZone z v u) ↔ Touches bs s u := Touches.iff ⟨fun _ => rfl, fun _ => rfl, fun _ => rfl, fun _ => rfl, fun _ => rfl, fun _ => rfl, fun _ => rfl, fun n => absurd hmgd n, fun _ => rfl, rfl⟩

@[simp] theorem applyClaim_touches {bs : List Block} {s u : State} (x : Arm) (z : Nat)
    (hmgd : Block.mgd ∈ bs) :
    Touches bs s (applyClaim x z u) ↔ Touches bs s u := by
  unfold applyClaim
  try dsimp only
  (repeat' split) <;> simp [*]

@[simp] theorem enterStep_touches {bs : List Block} {s u : State} (x : Arm) 
    (hpcc : Block.pcc ∈ bs) :
    Touches bs s (enterStep x u) ↔ Touches bs s u := Touches.iff ⟨fun _ => rfl, fun _ => rfl, fun _ => rfl, fun _ => rfl, fun _ => rfl, fun _ => rfl, fun n => absurd hpcc n, fun _ => rfl, fun _ => rfl, rfl⟩

@[simp] theorem grantZone_touches {bs : List Block} {s u : State} (y : Arm) (z : Nat)
    (hmgd : Block.mgd ∈ bs) (hpcc : Block.pcc ∈ bs) (hevu : Block.evu ∈ bs) :
    Touches bs s (grantZone y z u) ↔ Touches bs s u := by
  unfold grantZone
  try dsimp only
  (repeat' split) <;> simp [*]

@[simp] theorem releaseZone_touches {bs : List Block} {s u : State} (announce : Bool) (z : Nat)
    (hmgd : Block.mgd ∈ bs) (hpcc : Block.pcc ∈ bs) (hevu : Block.evu ∈ bs) :
    Touches bs s (releaseZone announce z u) ↔ Touches bs s u := by
  unfold releaseZone
  try dsimp only
  (repeat' split) <;> simp [*]

@[simp] theorem askRelease_touches {bs : List Block} {s u : State} (x : Arm) (z : Nat)
    (hmgd : Block.mgd ∈ bs) (hpcc : Block.pcc ∈ bs) (hevu : Block.evu ∈ bs) :
    Touches bs s (askRelease x z u) ↔ Touches bs s u := by
  unfold askRelease
  try dsimp only
  (repeat' split) <;> simp [*]

@[simp] theorem withdrawWait_touches {bs : List Block} {s u : State} (x : Arm) (z : Nat)
    (hmgd : Block.mgd ∈ bs) :
    Touches bs s (withdrawWait x z u) ↔ Touches bs s u := by
  unfold withdrawWait
  try dsimp only
  (repeat' split) <;> simp [*]

@[simp] theorem deferredRelease_touches {bs : List Block} {s u : State} (z : Nat)
    (hmgd : Block.mgd ∈ bs) (hpcc : Block.pcc ∈ bs) (hevu : Block.evu ∈ bs) :
    Touches bs s (deferredRelease z u) ↔ Touches bs s u := by
  unfold deferredRelease
  try dsimp only
  (repeat' split) <;> simp [*]

@[simp] theorem intrusionOnset_touches {bs : List Block} {s u : State} (x : Arm) (o : BitVec 8)
    (hmgd : Block.mgd ∈ bs) (hevu : Block.evu ∈ bs) :
    Touches bs s (intrusionOnset x o u) ↔ Touches bs s u := by
  unfold intrusionOnset
  try dsimp only
  (repeat' split) <;> simp [*]

@[simp] theorem removeCreep_touches {bs : List Block} {s u : State} (x : Arm) 
    (hmgd : Block.mgd ∈ bs) :
    Touches bs s (removeCreep x u) ↔ Touches bs s u := Touches.iff ⟨fun _ => rfl, fun _ => rfl, fun _ => rfl, fun _ => rfl, fun _ => rfl, fun _ => rfl, fun _ => rfl, fun n => absurd hmgd n, fun _ => rfl, rfl⟩

@[simp] theorem monitorArm_touches {bs : List Block} {s u : State} (x : Arm) (t : Vec3)
    (hmgd : Block.mgd ∈ bs) (hevu : Block.evu ∈ bs) :
    Touches bs s (monitorArm x t u) ↔ Touches bs s u := by
  unfold monitorArm
  try dsimp only
  (repeat' split) <;> simp [*]

@[simp] theorem clearAt_touches {bs : List Block} {s u : State} (n : Nat)
    (hevu : Block.evu ∈ bs) :
    Touches bs s (clearAt n u) ↔ Touches bs s u := Touches.iff ⟨fun _ => rfl, fun _ => rfl, fun _ => rfl, fun _ => rfl, fun _ => rfl, fun _ => rfl, fun _ => rfl, fun _ => rfl, fun n => absurd hevu n, rfl⟩

@[simp] theorem clearRack_touches {bs : List Block} {s u : State} (p : Nat)
    (hevu : Block.evu ∈ bs) :
    Touches bs s (clearRack p u) ↔ Touches bs s u := by
  unfold clearRack
  try dsimp only
  (repeat' split) <;> simp [*]

@[simp] theorem selectEvent_touches {bs : List Block} {s u : State} 
    (hevu : Block.evu ∈ bs) :
    Touches bs s ((selectEvent u).2) ↔ Touches bs s u := by
  unfold selectEvent
  (repeat' split) <;> simp [*]

@[simp] theorem numericOnset_touches {bs : List Block} {s u : State} (x : Arm) (a b : BitVec 3)
    (hcen : Block.cen ∈ bs) (hmgd : Block.mgd ∈ bs) (hevu : Block.evu ∈ bs) :
    Touches bs s (numericOnset x a b u) ↔ Touches bs s u := by
  unfold numericOnset whenDo
  dsimp only
  (repeat' split) <;> simp [*]

@[simp] theorem softLimits_touches {bs : List Block} {s u : State} (x : Arm) (b : Bank) (g : Vec3)
    (hcen : Block.cen ∈ bs) (hmgd : Block.mgd ∈ bs) (hevu : Block.evu ∈ bs) :
    Touches bs s (softLimits x b g u) ↔ Touches bs s u := by
  unfold softLimits whenDo
  dsimp only
  (repeat' split) <;> simp [*]

@[simp] theorem resolutionStep_touches {bs : List Block} {s u : State} (x : Arm) (c : Option (BitVec 64))
    (htcu : Block.tcu ∈ bs) :
    Touches bs s (resolutionStep x c u) ↔ Touches bs s u := by
  unfold resolutionStep
  try dsimp only
  (repeat' split) <;> simp [*]

@[simp] theorem correctInvalid_touches {bs : List Block} {s u : State} (x : Arm) (r : ReaderReason) (c : BitVec 64)
    (hcen : Block.cen ∈ bs) (htcu : Block.tcu ∈ bs) (hmgd : Block.mgd ∈ bs) (hevu : Block.evu ∈ bs) :
    Touches bs s ((correctInvalid x r c u).state) ↔ Touches bs s u := by
  unfold correctInvalid whenDo
  dsimp only
  (repeat' split) <;> simp [*]

@[simp] theorem correctValid_touches {bs : List Block} {s u : State} (x : Arm) (f : ArmInForce) (m : ArmSample)
    (hcen : Block.cen ∈ bs) (htcu : Block.tcu ∈ bs) :
    Touches bs s ((correctValid x f m u).state) ↔ Touches bs s u := by
  unfold correctValid
  dsimp only
  simp [*]

@[simp] theorem correctArm_touches {bs : List Block} {s u : State} (x : Arm) (i : Memory 8)
    (hcen : Block.cen ∈ bs) (htcu : Block.tcu ∈ bs) (hmgd : Block.mgd ∈ bs) (hevu : Block.evu ∈ bs) :
    Touches bs s ((correctArm x i u).state) ↔ Touches bs s u := by
  unfold correctArm
  (repeat' split) <;> simp [*]

@[simp] theorem postChannel_touches {bs : List Block} {s u : State} (i : Nat) (e : Option ChannelEvent)
    (hevu : Block.evu ∈ bs) :
    Touches bs s (postChannel i e u) ↔ Touches bs s u := by
  unfold postChannel
  try dsimp only
  (repeat' split) <;> simp [*]

@[simp] theorem intakeChannel_touches {bs : List Block} {s u : State} (t : Bank) (y : BitVec 64) (i : Memory 8) (c : Nat)
    (hthu : Block.thu ∈ bs) (hevu : Block.evu ∈ bs) :
    Touches bs s (intakeChannel t y i c u) ↔ Touches bs s u := by
  unfold intakeChannel
  try dsimp only
  (repeat' split) <;> simp [*]

@[simp] theorem staleOnset_touches {bs : List Block} {s u : State} (a : Nat)
    (hmgd : Block.mgd ∈ bs) (hevu : Block.evu ∈ bs) :
    Touches bs s (staleOnset a u) ↔ Touches bs s u := by
  unfold staleOnset whenDo
  dsimp only
  (repeat' split) <;> simp [*]

@[simp] theorem aggregateRole_touches {bs : List Block} {s u : State} (t : Bank) (a : Nat)
    (hthu : Block.thu ∈ bs) (hmgd : Block.mgd ∈ bs) (hevu : Block.evu ∈ bs) :
    Touches bs s (aggregateRole t a u) ↔ Touches bs s u := by
  unfold aggregateRole whenDo
  dsimp only
  (repeat' split) <;> simp [*]

@[simp] theorem restartChannels_touches {bs : List Block} {s u : State} 
    (hthu : Block.thu ∈ bs) :
    Touches bs s (restartChannels u) ↔ Touches bs s u := by
  unfold restartChannels
  try dsimp only
  (repeat' split) <;> simp [*]

theorem foldl_touches {α : Type} {bs : List Block} {s : State} {f : State → α → State}
    (hf : ∀ u a, Touches bs s (f u a) ↔ Touches bs s u) (l : List α) {u : State} :
    Touches bs s (l.foldl f u) ↔ Touches bs s u := by
  induction l generalizing u with
  | nil => exact Iff.rfl
  | cons a l ih => exact ih.trans (hf u a)

@[simp] theorem takeThermal_touches {bs : List Block} {s u : State} (y : BitVec 64) (i : Memory 8) (t : ThermalStep)
    (hthu : Block.thu ∈ bs) (hmgd : Block.mgd ∈ bs) (hevu : Block.evu ∈ bs) :
    Touches bs s (takeThermal y i t u) ↔ Touches bs s u := by
  unfold takeThermal
  (repeat' split) <;> simp [*]

@[simp] theorem thermalPass_touches {bs : List Block} {s u : State} (y : BitVec 64) (i : Memory 8) (ts : List ThermalStep)
    (hthu : Block.thu ∈ bs) (hmgd : Block.mgd ∈ bs) (hevu : Block.evu ∈ bs) :
    Touches bs s (thermalPass y i ts u) ↔ Touches bs s u := foldl_touches (fun v a => by simp [*]) ts

@[simp] theorem advance_touches {bs : List Block} {s u : State} (x : Arm) 
    (hthu : Block.thu ∈ bs) :
    Touches bs s (advance x u) ↔ Touches bs s u := Touches.iff ⟨fun _ => rfl, fun _ => rfl, fun _ => rfl, fun _ => rfl, fun n => absurd hthu n, fun _ => rfl, fun _ => rfl, fun _ => rfl, fun _ => rfl, rfl⟩

@[simp] theorem reloadCountdown_touches {bs : List Block} {s u : State} (x : Arm) 
    (hthu : Block.thu ∈ bs) :
    Touches bs s (reloadCountdown x u) ↔ Touches bs s u := Touches.iff ⟨fun _ => rfl, fun _ => rfl, fun _ => rfl, fun _ => rfl, fun n => absurd hthu n, fun _ => rfl, fun _ => rfl, fun _ => rfl, fun _ => rfl, rfl⟩

@[simp] theorem tickCountdown_touches {bs : List Block} {s u : State} (x : Arm) 
    (hthu : Block.thu ∈ bs) :
    Touches bs s (tickCountdown x u) ↔ Touches bs s u := Touches.iff ⟨fun _ => rfl, fun _ => rfl, fun _ => rfl, fun _ => rfl, fun n => absurd hthu n, fun _ => rfl, fun _ => rfl, fun _ => rfl, fun _ => rfl, rfl⟩

@[simp] theorem autoAdvance_touches {bs : List Block} {s u : State} (x : Arm) 
    (hthu : Block.thu ∈ bs) :
    Touches bs s (autoAdvance x u) ↔ Touches bs s u := by
  unfold autoAdvance
  try dsimp only
  (repeat' split) <;> simp [*]

@[simp] theorem takeDeferred_touches {bs : List Block} {s u : State} (x : Arm) 
    (hthu : Block.thu ∈ bs) :
    Touches bs s (takeDeferred x u) ↔ Touches bs s u := by
  unfold takeDeferred
  try dsimp only
  (repeat' split) <;> simp [*]

@[simp] theorem takeEdge_touches {bs : List Block} {s u : State} (x : Arm) 
    (htcu : Block.tcu ∈ bs) (hevu : Block.evu ∈ bs) :
    Touches bs s (takeEdge x u) ↔ Touches bs s u := by
  unfold takeEdge
  try dsimp only
  (repeat' split) <;> simp [*]

@[simp] theorem losePoint_touches {bs : List Block} {s u : State} (x : Arm) (q : BitVec 16) (w : LostReason)
    (hmgd : Block.mgd ∈ bs) (hevu : Block.evu ∈ bs) :
    Touches bs s (losePoint x q w u) ↔ Touches bs s u := by
  unfold losePoint
  try dsimp only
  simp [*]

@[simp] theorem joinQueue_touches {bs : List Block} {s u : State} (p : Point)
    (htcu : Block.tcu ∈ bs) (hmgd : Block.mgd ∈ bs) (hevu : Block.evu ∈ bs) :
    Touches bs s (joinQueue p u) ↔ Touches bs s u := by
  unfold joinQueue
  try dsimp only
  (repeat' split) <;> simp [*]

@[simp] theorem endTouch_touches {bs : List Block} {s u : State} (x : Arm) (l : Latch)
    (htcu : Block.tcu ∈ bs) :
    Touches bs s (endTouch x l u) ↔ Touches bs s u := Touches.iff ⟨fun _ => rfl, fun _ => rfl, fun _ => rfl, fun _ => rfl, fun _ => rfl, fun n => absurd htcu n, fun _ => rfl, fun _ => rfl, fun _ => rfl, rfl⟩

@[simp] theorem finishTouch_touches {bs : List Block} {s u : State} (x : Arm) (t : Touch)
    (hcen : Block.cen ∈ bs) (htcu : Block.tcu ∈ bs) (hmgd : Block.mgd ∈ bs) (hevu : Block.evu ∈ bs) :
    Touches bs s (finishTouch x t u) ↔ Touches bs s u := by
  unfold finishTouch
  try dsimp only
  simp [*]

@[simp] theorem resolveTouch_touches {bs : List Block} {s u : State} (x : Arm) 
    (hcen : Block.cen ∈ bs) (htcu : Block.tcu ∈ bs) (hmgd : Block.mgd ∈ bs) (hevu : Block.evu ∈ bs) :
    Touches bs s (resolveTouch x u) ↔ Touches bs s u := by
  unfold resolveTouch
  try dsimp only
  (repeat' split) <;> simp [*]

@[simp] theorem lateTouch_touches {bs : List Block} {s u : State} (x : Arm) 
    (hcen : Block.cen ∈ bs) (htcu : Block.tcu ∈ bs) (hmgd : Block.mgd ∈ bs) (hevu : Block.evu ∈ bs) :
    Touches bs s (lateTouch x u) ↔ Touches bs s u := by
  unfold lateTouch
  try dsimp only
  (repeat' split) <;> simp [*]

@[simp] theorem lateResolution_touches {bs : List Block} {s u : State} (x : Arm) 
    (hcen : Block.cen ∈ bs) (htcu : Block.tcu ∈ bs) (hmgd : Block.mgd ∈ bs) (hevu : Block.evu ∈ bs) :
    Touches bs s (lateResolution x u) ↔ Touches bs s u := by
  unfold lateResolution
  try dsimp only
  (repeat' split) <;> simp [*]

@[simp] theorem tickRearm_touches {bs : List Block} {s u : State} (x : Arm) 
    (htcu : Block.tcu ∈ bs) :
    Touches bs s (tickRearm x u) ↔ Touches bs s u := by
  unfold tickRearm
  try dsimp only
  (repeat' split) <;> simp [*]

@[simp] theorem rearmExpiry_touches {bs : List Block} {s u : State} (x : Arm) 
    (htcu : Block.tcu ∈ bs) :
    Touches bs s (rearmExpiry x u) ↔ Touches bs s u := by
  unfold rearmExpiry
  try dsimp only
  (repeat' split) <;> simp [*]

@[simp] theorem writeReturn_touches {bs : List Block} {s u : State} (o : Nat) (bytes : List Byte)
    (hriu : Block.riu ∈ bs) :
    Touches bs s (writeReturn o bytes u) ↔ Touches bs s u := Touches.iff ⟨fun n => absurd hriu n, fun _ => rfl, fun _ => rfl, fun _ => rfl, fun _ => rfl, fun _ => rfl, fun _ => rfl, fun _ => rfl, fun _ => rfl, rfl⟩

@[simp] theorem writePoints_touches {bs : List Block} {s u : State} (w i : Nat) (ps : List Point)
    (hriu : Block.riu ∈ bs) : Touches bs s (writePoints w i ps u) ↔ Touches bs s u := by
  induction ps generalizing i u with
  | nil => exact Iff.rfl
  | cons p ps ih => exact (ih (i + 1)).trans (writeReturn_touches _ _ hriu)

@[simp] theorem drainPoints_touches {bs : List Block} {s u : State} 
    (hriu : Block.riu ∈ bs) (htcu : Block.tcu ∈ bs) :
    Touches bs s (drainPoints u) ↔ Touches bs s u := by
  unfold drainPoints
  try dsimp only
  (repeat' split) <;> simp [*]

@[simp] theorem clearSession_touches {bs : List Block} {s u : State} (x : Arm) 
    (hpcc : Block.pcc ∈ bs) :
    Touches bs s (clearSession x u) ↔ Touches bs s u := Touches.iff ⟨fun _ => rfl, fun _ => rfl, fun _ => rfl, fun _ => rfl, fun _ => rfl, fun _ => rfl, fun n => absurd hpcc n, fun _ => rfl, fun _ => rfl, rfl⟩

@[simp] theorem completeSession_touches {bs : List Block} {s u : State} (x : Arm) 
    (hpcc : Block.pcc ∈ bs) (htcu : Block.tcu ∈ bs) (hmgd : Block.mgd ∈ bs) (hevu : Block.evu ∈ bs) :
    Touches bs s (completeSession x u) ↔ Touches bs s u := by
  unfold completeSession
  try dsimp only
  simp [*]

@[simp] theorem enterFault_touches {bs : List Block} {s u : State} (x : Arm) (c : FaultCause) (d : Detail)
    (hpcc : Block.pcc ∈ bs) (hmgd : Block.mgd ∈ bs) (hevu : Block.evu ∈ bs) :
    Touches bs s (enterFault x c d u) ↔ Touches bs s u := by
  unfold enterFault
  try dsimp only
  (repeat' split) <;> simp [*]

@[simp] theorem cancelWaiting_touches {bs : List Block} {s u : State} (x : Arm) 
    (hpcc : Block.pcc ∈ bs) (htcu : Block.tcu ∈ bs) (hmgd : Block.mgd ∈ bs) :
    Touches bs s (cancelWaiting x u) ↔ Touches bs s u := by
  unfold cancelWaiting
  try dsimp only
  simp [*]

@[simp] theorem tickStep_touches {bs : List Block} {s u : State} (x : Arm) 
    (hpcc : Block.pcc ∈ bs) :
    Touches bs s (tickStep x u) ↔ Touches bs s u := by
  unfold tickStep
  try dsimp only
  (repeat' split) <;> simp [*]

@[simp] theorem stepTimeout_touches {bs : List Block} {s u : State} (x : Arm) 
    (hpcc : Block.pcc ∈ bs) (hmgd : Block.mgd ∈ bs) (hevu : Block.evu ∈ bs) :
    Touches bs s (stepTimeout x u) ↔ Touches bs s u := by
  unfold stepTimeout
  try dsimp only
  (repeat' split) <;> simp [*]

@[simp] theorem dropDone_touches {bs : List Block} {s u : State} (x : Arm) 
    (hpcc : Block.pcc ∈ bs) (hcen : Block.cen ∈ bs) (htcu : Block.tcu ∈ bs) (hmgd : Block.mgd ∈ bs) (hevu : Block.evu ∈ bs) :
    Touches bs s (dropDone x u) ↔ Touches bs s u := by
  unfold dropDone
  dsimp only
  (repeat' split) <;> simp [*]

@[simp] theorem dropComplete_touches {bs : List Block} {s u : State} (x : Arm) 
    (hpcc : Block.pcc ∈ bs) (hcen : Block.cen ∈ bs) (htcu : Block.tcu ∈ bs) (hmgd : Block.mgd ∈ bs) (hevu : Block.evu ∈ bs) :
    Touches bs s (dropComplete x u) ↔ Touches bs s u := by
  unfold dropComplete
  try dsimp only
  (repeat' split) <;> simp [*]

@[simp] theorem losesTip_touches {bs : List Block} {s u : State} (x : Arm) 
    (hcen : Block.cen ∈ bs) (htcu : Block.tcu ∈ bs) (hmgd : Block.mgd ∈ bs) :
    Touches bs s (losesTip x u) ↔ Touches bs s u := by
  unfold losesTip
  try dsimp only
  simp [*]

@[simp] theorem postHead_touches {bs : List Block} {s u : State} (x : Arm) 
    (hevu : Block.evu ∈ bs) :
    Touches bs s (postHead x u) ↔ Touches bs s u := by
  unfold postHead
  try dsimp only
  simp [*]

@[simp] theorem cancelByMismatch_touches {bs : List Block} {s u : State} (x : Arm) 
    (hpcc : Block.pcc ∈ bs) (htcu : Block.tcu ∈ bs) (hmgd : Block.mgd ∈ bs) :
    Touches bs s (cancelByMismatch x u) ↔ Touches bs s u := by
  unfold cancelByMismatch
  try dsimp only
  simp [*]

@[simp] theorem markHead_touches {bs : List Block} {s u : State} (x : Arm) 
    (hpcc : Block.pcc ∈ bs) :
    Touches bs s (markHead x u) ↔ Touches bs s u := by
  unfold markHead
  try dsimp only
  (repeat' split) <;> simp [*]

@[simp] theorem disturb_touches {bs : List Block} {s u : State} (x : Arm) (m : Nat) (l o : Bool)
    (hpcc : Block.pcc ∈ bs) (hcen : Block.cen ∈ bs) (htcu : Block.tcu ∈ bs) (hmgd : Block.mgd ∈ bs) (hevu : Block.evu ∈ bs) :
    Touches bs s (disturb x m l o u) ↔ Touches bs s u := by
  unfold disturb whenDo
  dsimp only
  (repeat' split) <;> simp [*]

@[simp] theorem unverifyFormer_touches {bs : List Block} {s u : State} (l : TipLocation) (p : Nat)
    (hpcc : Block.pcc ∈ bs) :
    Touches bs s (unverifyFormer l p u) ↔ Touches bs s u := by
  unfold unverifyFormer
  try dsimp only
  (repeat' split) <;> simp [*]

@[simp] theorem pickDone_touches {bs : List Block} {s u : State} (x : Arm) (o : Bool)
    (hpcc : Block.pcc ∈ bs) (hcen : Block.cen ∈ bs) (htcu : Block.tcu ∈ bs) (hmgd : Block.mgd ∈ bs) (hevu : Block.evu ∈ bs) :
    Touches bs s (pickDone x o u) ↔ Touches bs s u := by
  unfold pickDone
  dsimp only
  (repeat' split) <;> simp [*]

@[simp] theorem pickComplete_touches {bs : List Block} {s u : State} (x : Arm) (o : Bool)
    (hpcc : Block.pcc ∈ bs) (hcen : Block.cen ∈ bs) (htcu : Block.tcu ∈ bs) (hmgd : Block.mgd ∈ bs) (hevu : Block.evu ∈ bs) :
    Touches bs s (pickComplete x o u) ↔ Touches bs s u := by
  unfold pickComplete
  try dsimp only
  (repeat' split) <;> simp [*]

@[simp] theorem supervise_touches {bs : List Block} {s u : State} (x : Arm) (hs : HeadState) (c : BitVec 16)
    (hpcc : Block.pcc ∈ bs) (hmgd : Block.mgd ∈ bs) (hevu : Block.evu ∈ bs) :
    Touches bs s (supervise x hs c u) ↔ Touches bs s u := by
  unfold supervise whenDo
  dsimp only
  (repeat' split) <;> simp [*]

@[simp] theorem readStatus_touches {bs : List Block} {s u : State} (x : Arm) (i : Memory 8)
    (hpcc : Block.pcc ∈ bs) (hmgd : Block.mgd ∈ bs) (hevu : Block.evu ∈ bs) :
    Touches bs s (readStatus x i u) ↔ Touches bs s u := by
  unfold readStatus
  dsimp only
  (repeat' split) <;> simp [*]

@[simp] theorem monitorPort_touches {bs : List Block} {s u : State} (r : BitVec 12) (p : Nat)
    (hpcc : Block.pcc ∈ bs) (hevu : Block.evu ∈ bs) :
    Touches bs s (monitorPort r p u) ↔ Touches bs s u := by
  unfold monitorPort
  try dsimp only
  (repeat' split) <;> simp [*]

@[simp] theorem takeRack_touches {bs : List Block} {s u : State} (i : Memory 8) (ps : List Nat) (t : RackStep)
    (hpcc : Block.pcc ∈ bs) (hevu : Block.evu ∈ bs) :
    Touches bs s (takeRack i ps t u) ↔ Touches bs s u := by
  unfold takeRack
  (repeat' split) <;> simp [*]

@[simp] theorem rackPass_touches {bs : List Block} {s u : State} (i : Memory 8) (ps : List Nat) (ts : List RackStep)
    (hpcc : Block.pcc ∈ bs) (hevu : Block.evu ∈ bs) :
    Touches bs s (rackPass i ps ts u) ↔ Touches bs s u := foldl_touches (fun v a => by simp [*]) ts

@[simp] theorem checksPass_touches {bs : List Block} {s u : State} 
    (htbs : Block.tbs ∈ bs) :
    Touches bs s (checksPass u) ↔ Touches bs s u := Touches.iff ⟨fun _ => rfl, fun _ => rfl, fun n => absurd htbs n, fun _ => rfl, fun _ => rfl, fun _ => rfl, fun _ => rfl, fun _ => rfl, fun _ => rfl, rfl⟩

@[simp] theorem checkComplete_touches {bs : List Block} {s u : State} (k : TableKind)
    (htbs : Block.tbs ∈ bs) (hevu : Block.evu ∈ bs) :
    Touches bs s (checkComplete k u) ↔ Touches bs s u := by
  unfold checkComplete
  dsimp only
  (repeat' split) <;> simp [*]

@[simp] theorem activationEffect_touches {bs : List Block} {s u : State} (k : TableKind)
    (hriu : Block.riu ∈ bs) (hcen : Block.cen ∈ bs) (hthu : Block.thu ∈ bs) (htcu : Block.tcu ∈ bs) (hmgd : Block.mgd ∈ bs) :
    Touches bs s (activationEffect k u) ↔ Touches bs s u := by
  unfold activationEffect
  try dsimp only
  (repeat' split) <;> simp [*]

@[simp] theorem activate_touches {bs : List Block} {s u : State} (k : TableKind)
    (hriu : Block.riu ∈ bs) (htbs : Block.tbs ∈ bs) (hcen : Block.cen ∈ bs) (hthu : Block.thu ∈ bs) (htcu : Block.tcu ∈ bs) (hmgd : Block.mgd ∈ bs) (hevu : Block.evu ∈ bs) :
    Touches bs s (activate k u) ↔ Touches bs s u := by
  unfold activate
  try dsimp only
  simp [*]

@[simp] theorem failCross_touches {bs : List Block} {s u : State} (k : TableKind) (o : Nat)
    (htbs : Block.tbs ∈ bs) (hevu : Block.evu ∈ bs) :
    Touches bs s (failCross k o u) ↔ Touches bs s u := by
  unfold failCross
  try dsimp only
  simp [*]

@[simp] theorem sessionRingLoss_touches {bs : List Block} {s u : State} (x : Arm) 
    (hpcc : Block.pcc ∈ bs) (hmgd : Block.mgd ∈ bs) (hevu : Block.evu ∈ bs) :
    Touches bs s (sessionRingLoss x u) ↔ Touches bs s u := by
  unfold sessionRingLoss
  try dsimp only
  (repeat' split) <;> simp [*]

@[simp] theorem ringLossOnset_touches {bs : List Block} {s u : State} (o : Bool)
    (hriu : Block.riu ∈ bs) (hcen : Block.cen ∈ bs) (htcu : Block.tcu ∈ bs) (hpcc : Block.pcc ∈ bs) (hmgd : Block.mgd ∈ bs) (hevu : Block.evu ∈ bs) :
    Touches bs s (ringLossOnset o u) ↔ Touches bs s u := by
  unfold ringLossOnset
  dsimp only
  split <;> simp [*]

@[simp] theorem countMissing_touches {bs : List Block} {s u : State} (n : Nat) (o : Bool)
    (hriu : Block.riu ∈ bs) (hcen : Block.cen ∈ bs) (htcu : Block.tcu ∈ bs) (hpcc : Block.pcc ∈ bs) (hmgd : Block.mgd ∈ bs) (hevu : Block.evu ∈ bs) :
    Touches bs s (countMissing n o u) ↔ Touches bs s u := by
  unfold countMissing
  dsimp only
  split <;> simp [*]

@[simp] theorem missingArrival_touches {bs : List Block} {s u : State} (o : Bool)
    (hriu : Block.riu ∈ bs) (hcen : Block.cen ∈ bs) (htcu : Block.tcu ∈ bs) (hpcc : Block.pcc ∈ bs) (hmgd : Block.mgd ∈ bs) (hevu : Block.evu ∈ bs) :
    Touches bs s (missingArrival o u) ↔ Touches bs s u := by
  unfold missingArrival
  try dsimp only
  (repeat' split) <;> simp [*]

@[simp] theorem reachDeadline_touches {bs : List Block} {s u : State} (o : Bool)
    (hriu : Block.riu ∈ bs) (hcen : Block.cen ∈ bs) (htcu : Block.tcu ∈ bs) (hpcc : Block.pcc ∈ bs) (hmgd : Block.mgd ∈ bs) (hevu : Block.evu ∈ bs) :
    Touches bs s (reachDeadline o u) ↔ Touches bs s u := by
  unfold reachDeadline
  try dsimp only
  (repeat' split) <;> simp [*]

@[simp] theorem validArrival_touches {bs : List Block} {s u : State} 
    (hriu : Block.riu ∈ bs) (hevu : Block.evu ∈ bs) :
    Touches bs s (validArrival u) ↔ Touches bs s u := by
  unfold validArrival
  dsimp only
  split <;> simp [*]

@[simp] theorem runClock_touches {bs : List Block} {s u : State} (e : Nat)
    (hriu : Block.riu ∈ bs) (hcen : Block.cen ∈ bs) (htcu : Block.tcu ∈ bs) (hpcc : Block.pcc ∈ bs) (hmgd : Block.mgd ∈ bs) (hevu : Block.evu ∈ bs) :
    Touches bs s (runClock e u) ↔ Touches bs s u := by
  unfold runClock
  dsimp only
  (repeat' split) <;> simp [*]

@[simp] theorem clearLines_touches {bs : List Block} {s u : State} 
    (hriu : Block.riu ∈ bs) :
    Touches bs s (clearLines u) ↔ Touches bs s u := Touches.iff ⟨fun n => absurd hriu n, fun _ => rfl, fun _ => rfl, fun _ => rfl, fun _ => rfl, fun _ => rfl, fun _ => rfl, fun _ => rfl, fun _ => rfl, rfl⟩

@[simp] theorem sendP1_touches {bs : List Block} {s u : State} (o : Bool) (f : RingFrame)
    (hriu : Block.riu ∈ bs) :
    Touches bs s (sendP1 o f u) ↔ Touches bs s u := Touches.iff ⟨fun n => absurd hriu n, fun _ => rfl, fun _ => rfl, fun _ => rfl, fun _ => rfl, fun _ => rfl, fun _ => rfl, fun _ => rfl, fun _ => rfl, rfl⟩

@[simp] theorem sendP2_touches {bs : List Block} {s u : State} (o : Bool) (f : RingFrame)
    (hriu : Block.riu ∈ bs) :
    Touches bs s (sendP2 o f u) ↔ Touches bs s u := Touches.iff ⟨fun n => absurd hriu n, fun _ => rfl, fun _ => rfl, fun _ => rfl, fun _ => rfl, fun _ => rfl, fun _ => rfl, fun _ => rfl, fun _ => rfl, rfl⟩

@[simp] theorem countTurned_touches {bs : List Block} {s u : State} 
    (hriu : Block.riu ∈ bs) :
    Touches bs s (countTurned u) ↔ Touches bs s u := Touches.iff ⟨fun n => absurd hriu n, fun _ => rfl, fun _ => rfl, fun _ => rfl, fun _ => rfl, fun _ => rfl, fun _ => rfl, fun _ => rfl, fun _ => rfl, rfl⟩

@[simp] theorem addMode_touches {bs : List Block} {s u : State} 
    (hmgd : Block.mgd ∈ bs) :
    Touches bs s (addMode u) ↔ Touches bs s u := by
  unfold addMode
  try dsimp only
  simp [*]

@[simp] theorem takeAddress_touches {bs : List Block} {s u : State} (a : Byte)
    (hriu : Block.riu ∈ bs) (hmgd : Block.mgd ∈ bs) :
    Touches bs s (takeAddress a u) ↔ Touches bs s u := by
  unfold takeAddress
  try dsimp only
  simp [*]

@[simp] theorem startCountdown_touches {bs : List Block} {s u : State} (x : Arm) 
    (hthu : Block.thu ∈ bs) :
    Touches bs s (startCountdown x u) ↔ Touches bs s u := by
  unfold startCountdown
  try dsimp only
  (repeat' split) <;> simp [*]

@[simp] theorem enterRun_touches {bs : List Block} {s u : State} 
    (hriu : Block.riu ∈ bs) (hthu : Block.thu ∈ bs) :
    Touches bs s (enterRun u) ↔ Touches bs s u := by
  unfold enterRun
  try dsimp only
  simp [*]

@[simp] theorem leaveRun_touches {bs : List Block} {s u : State} (x : Arm) 
    (hthu : Block.thu ∈ bs) (htcu : Block.tcu ∈ bs) (hpcc : Block.pcc ∈ bs) (hmgd : Block.mgd ∈ bs) :
    Touches bs s (leaveRun x u) ↔ Touches bs s u := by
  unfold leaveRun
  dsimp only
  split <;> simp [*]

@[simp] theorem enterConfig_touches {bs : List Block} {s u : State} 
    (hriu : Block.riu ∈ bs) (hthu : Block.thu ∈ bs) (htcu : Block.tcu ∈ bs) (hpcc : Block.pcc ∈ bs) (hmgd : Block.mgd ∈ bs) :
    Touches bs s (enterConfig u) ↔ Touches bs s u := by
  unfold enterConfig
  try dsimp only
  simp [*]

@[simp] theorem interruptSession_touches {bs : List Block} {s u : State} (x : Arm) 
    (hpcc : Block.pcc ∈ bs) :
    Touches bs s (interruptSession x u) ↔ Touches bs s u := by
  unfold interruptSession
  dsimp only
  (repeat' split) <;> simp [*]

@[simp] theorem warmReset_touches {bs : List Block} {s u : State} 
    (hriu : Block.riu ∈ bs) (htbs : Block.tbs ∈ bs) (hcen : Block.cen ∈ bs) (hthu : Block.thu ∈ bs) (htcu : Block.tcu ∈ bs) (hpcc : Block.pcc ∈ bs) (hmgd : Block.mgd ∈ bs) (hevu : Block.evu ∈ bs) :
    Touches bs s (warmReset u) ↔ Touches bs s u := by
  unfold warmReset
  have h : Touches bs s (interruptSession .b (interruptSession .a u)) ↔ Touches bs s u := by simp [*]
  rw [addMode_touches hmgd, ← h]
  exact Touches.iff ⟨fun n => absurd hriu n, fun _ => rfl, fun n => absurd htbs n, fun n => absurd hcen n, fun n => absurd hthu n, fun n => absurd htcu n, fun n => absurd hpcc n, fun n => absurd hmgd n, fun n => absurd hevu n, rfl⟩

@[simp] theorem refreshMap_touches {bs : List Block} {s u : State} (x : Arm)
    (hcen : Block.cen ∈ bs) : Touches bs s (refreshMap x u) ↔ Touches bs s u := onCen_touches x _ hcen

@[simp] theorem refreshRecord_touches {bs : List Block} {s u : State}
    (hriu : Block.riu ∈ bs) : Touches bs s (refreshRecord u) ↔ Touches bs s u := with_riu_touches hriu

@[simp] theorem keepOffset_touches {bs : List Block} {s u : State} (t : Nat)
    (hriu : Block.riu ∈ bs) : Touches bs s (keepOffset t u) ↔ Touches bs s u := with_riu_touches hriu

@[simp] theorem passLimits_touches {bs : List Block} {s u : State} (x : Arm) (r : Chain)
    (hcen : Block.cen ∈ bs) (hmgd : Block.mgd ∈ bs) (hevu : Block.evu ∈ bs) :
    Touches bs s (passLimits x r u) ↔ Touches bs s u := by
  unfold passLimits
  (repeat' split) <;> simp [*]

@[simp] theorem withReply_touches {bs : List Block} {s u : State} (c : Byte) (r : Reply)
    (hrqu : Block.rqu ∈ bs) :
    Touches bs s (withReply c r u) ↔ Touches bs s u := Touches.iff ⟨fun _ => rfl, fun n => absurd hrqu n, fun _ => rfl, fun _ => rfl, fun _ => rfl, fun _ => rfl, fun _ => rfl, fun _ => rfl, fun _ => rfl, rfl⟩

end Sys2Proof.Laws
end

