-- ==== Sys2Proof/Laws/Memory.lean ====
section
/-! SUPPORT. The laws of the sparse buffers: every write keeps the canonical form, a read after a write gives what was
written, and every other offset reads as before. -/
namespace Sys2Proof.Laws

open Sys2Proof.Machine

variable {w : Nat}

/-! ## Reads -/

/-- Nothing is listed below the first offset a canonical buffer may hold. -/
theorem read_below_wfFrom {m : Memory w} {lo a : Nat} (h : Memory.wfFrom lo m = true) (ha : a < lo) :
    Memory.read m a = 0 := by
  induction m generalizing lo with
  | nil => rfl
  | cons c m ih =>
    obtain ⟨k, v⟩ := c
    simp only [Memory.wfFrom, Bool.and_eq_true, decide_eq_true_eq] at h
    rw [Memory.read, if_neg (by omega)]
    exact ih h.2 (by omega)

/-- A canonical buffer reads zero at every offset beyond its bound. -/
theorem read_of_below {m : Memory w} {n a : Nat} (h : Memory.below m n = true) (ha : n ≤ a) : Memory.read m a = 0 := by
  induction m with
  | nil => rfl
  | cons c m ih =>
    obtain ⟨k, v⟩ := c
    simp only [Memory.below, List.all_cons, Bool.and_eq_true, decide_eq_true_eq] at h
    rw [Memory.read, if_neg (by omega)]
    exact ih h.2

/-- A read elsewhere is as before the write. -/
theorem read_write_other {m : Memory w} {a b : Nat} {v : BitVec w} (h : b ≠ a) :
    Memory.read (Memory.write m a v) b = Memory.read m b := by
  induction m with
  | nil => simp only [Memory.write]; split <;> simp [Memory.read, h.symm]
  | cons c m ih =>
    obtain ⟨k, x⟩ := c
    simp only [Memory.write]
    split
    · split <;> simp [Memory.read, h.symm]
    · split
      · subst_vars
        split <;> simp [Memory.read, h.symm]
      · simp only [Memory.read, ih]

/-- A read of the offset written gives the value written, in a canonical buffer. -/
theorem read_write_same {m : Memory w} {lo a : Nat} {v : BitVec w} (h : Memory.wfFrom lo m = true) :
    Memory.read (Memory.write m a v) a = v := by
  induction m generalizing lo with
  | nil => simp only [Memory.write]; split <;> simp [Memory.read, *]
  | cons c m ih =>
    obtain ⟨k, x⟩ := c
    have h0 := h
    simp only [Memory.wfFrom, Bool.and_eq_true, decide_eq_true_eq] at h
    simp only [Memory.write]
    split
    · split
      · have := read_below_wfFrom h.2 (a := a) (by omega)
        rw [Memory.read, if_neg (by omega), this, ‹v = 0›]
      · simp [Memory.read]
    · split
      · subst_vars
        split
        · rw [read_below_wfFrom h.2 (by omega), ‹v = 0›]
        · simp [Memory.read]
      · rw [Memory.read, if_neg (by omega)]
        exact ih h.2

/-! ## The canonical form -/

theorem wfFrom_mono {m : Memory w} {lo l : Nat} (h : Memory.wfFrom lo m = true) (hl : l ≤ lo) :
    Memory.wfFrom l m = true := by
  cases m with
  | nil => rfl
  | cons c m =>
    obtain ⟨k, v⟩ := c
    simp only [Memory.wfFrom, Bool.and_eq_true, decide_eq_true_eq] at h ⊢
    exact ⟨⟨by omega, h.1.2⟩, h.2⟩

/-- A write keeps the canonical form. -/
theorem wfFrom_write {m : Memory w} {lo a : Nat} {v : BitVec w} (h : Memory.wfFrom lo m = true) (ha : lo ≤ a) :
    Memory.wfFrom lo (Memory.write m a v) = true := by
  induction m generalizing lo with
  | nil =>
    simp only [Memory.write]
    split
    · rfl
    · simp only [Memory.wfFrom, Bool.and_eq_true, decide_eq_true_eq]
      exact ⟨⟨ha, ‹_›⟩, trivial⟩
  | cons c m ih =>
    obtain ⟨k, x⟩ := c
    have h0 := h
    simp only [Memory.wfFrom, Bool.and_eq_true, decide_eq_true_eq] at h
    simp only [Memory.write]
    split
    · split
      · exact h0
      · simp only [Memory.wfFrom, Bool.and_eq_true, decide_eq_true_eq]
        exact ⟨⟨ha, ‹_›⟩, ⟨by omega, h.1.2⟩, h.2⟩
    · split
      · split
        · exact wfFrom_mono h.2 (by omega)
        · subst_vars
          simp only [Memory.wfFrom, Bool.and_eq_true, decide_eq_true_eq]
          exact ⟨⟨ha, ‹_›⟩, h.2⟩
      · simp only [Memory.wfFrom, Bool.and_eq_true, decide_eq_true_eq]
        exact ⟨h.1, ih h.2 (by omega)⟩

@[simp] theorem wf_write {m : Memory w} {a : Nat} {v : BitVec w} (h : Memory.wf m = true) :
    Memory.wf (Memory.write m a v) = true := wfFrom_write h (Nat.zero_le a)

/-- A write within a bound keeps the buffer within it. -/
theorem below_write {m : Memory w} {n a : Nat} {v : BitVec w} (h : Memory.below m n = true) (ha : a < n) :
    Memory.below (Memory.write m a v) n = true := by
  induction m with
  | nil => simp only [Memory.write]; split <;> simp [Memory.below, ha]
  | cons c m ih =>
    obtain ⟨k, x⟩ := c
    have h0 := h
    simp only [Memory.below, List.all_cons, Bool.and_eq_true, decide_eq_true_eq] at h
    simp only [Memory.write]
    split
    · split
      · exact h0
      · simp [Memory.below, ha, h]
    · split
      · split
        · exact h.2
        · simp [Memory.below, ha]; exact fun _ _ hm => by simpa using List.all_eq_true.mp h.2 _ hm
      · simp only [Memory.below, List.all_cons, Bool.and_eq_true, decide_eq_true_eq]
        exact ⟨h.1, ih h.2⟩

/-! ## Runs of values -/

@[simp] theorem wf_writeAll {m : Memory w} {a : Nat} {vs : List (BitVec w)} (h : Memory.wf m = true) :
    Memory.wf (Memory.writeAll m a vs) = true := by
  induction vs generalizing m a with
  | nil => exact h
  | cons v vs ih => exact ih (wf_write h)

theorem below_writeAll {m : Memory w} {n a : Nat} {vs : List (BitVec w)} (h : Memory.below m n = true)
    (ha : a + vs.length ≤ n) : Memory.below (Memory.writeAll m a vs) n = true := by
  induction vs generalizing m a with
  | nil => exact h
  | cons v vs ih =>
    simp only [List.length_cons] at ha
    exact ih (below_write h (by omega)) (by omega)

/-- A read outside the run written is as before. -/
theorem read_writeAll_other {m : Memory w} {a b : Nat} {vs : List (BitVec w)} (h : b < a ∨ a + vs.length ≤ b) :
    Memory.read (Memory.writeAll m a vs) b = Memory.read m b := by
  induction vs generalizing m a with
  | nil => rfl
  | cons v vs ih =>
    simp only [List.length_cons] at h
    rw [Memory.writeAll, ih (by omega), read_write_other (by omega)]

/-- A read inside the run written gives the value written there, in a canonical buffer. -/
theorem read_writeAll_same {m : Memory w} {a i : Nat} {vs : List (BitVec w)} (hm : Memory.wf m = true)
    (hi : i < vs.length) : Memory.read (Memory.writeAll m a vs) (a + i) = vs[i] := by
  induction vs generalizing m a i with
  | nil => simp at hi
  | cons v vs ih =>
    rw [Memory.writeAll]
    cases i with
    | zero =>
      rw [read_writeAll_other (by omega)]
      exact read_write_same hm
    | succ i =>
      simp only [List.length_cons] at hi
      have := ih (wf_write (a := a) (v := v) hm) (a := a + 1) (i := i) (by omega)
      rw [show a + (i + 1) = a + 1 + i by omega, this]
      simp

/-- Two canonical buffers that read alike are equal. -/
theorem wfFrom_ext {m m' : Memory w} {lo l : Nat} (h : Memory.wfFrom lo m = true) (h' : Memory.wfFrom l m' = true)
    (hr : ∀ a, Memory.read m a = Memory.read m' a) : m = m' := by
  induction m generalizing lo l m' with
  | nil =>
    cases m' with
    | nil => rfl
    | cons c m' =>
      have := hr c.1
      simp only [Memory.wfFrom, Bool.and_eq_true, decide_eq_true_eq] at h'
      simp only [Memory.read, if_true] at this
      exact absurd this.symm h'.1.2
  | cons c m ih =>
    obtain ⟨k, v⟩ := c
    simp only [Memory.wfFrom, Bool.and_eq_true, decide_eq_true_eq] at h
    cases m' with
    | nil =>
      have := hr k
      simp only [Memory.read, if_true] at this
      exact absurd this h.1.2
    | cons c' m' =>
      obtain ⟨k', v'⟩ := c'
      simp only [Memory.wfFrom, Bool.and_eq_true, decide_eq_true_eq] at h'
      have hk : k = k' := by
        rcases Nat.lt_trichotomy k k' with hl | he | hl
        · have := hr k
          rw [Memory.read, if_pos rfl, Memory.read, if_neg (by omega), read_below_wfFrom h'.2 (by omega)] at this
          exact absurd this h.1.2
        · exact he
        · have := hr k'
          rw [Memory.read, if_neg (by omega), read_below_wfFrom h.2 (by omega), Memory.read, if_pos rfl] at this
          exact absurd this.symm h'.1.2
      subst hk
      have hv : v = v' := by simpa [Memory.read] using hr k
      subst hv
      refine congrArg _ (ih h.2 h'.2 (fun a => ?_))
      by_cases ha : k = a
      · subst ha
        rw [read_below_wfFrom h.2 (by omega), read_below_wfFrom h'.2 (by omega)]
      · simpa [Memory.read, ha] using hr a

end Sys2Proof.Laws
end

