-- ==== Sys2Proof/Laws/State.lean ====
section
/-! SUPPORT. For each update of the state, what it leaves: one lemma per field, true by `rfl`; and what reading one arm's or
one kind's state gives after a change of it. -/
namespace Sys2Proof.Laws

open Sys2Proof.Machine

/-! ## One arm, one kind -/

@[simp] theorem get_modify_self {α : Type} (p : PerArm α) (x : Arm) (f : α → α) :
    (p.modify x f).get x = f (p.get x) := by cases x <;> rfl

theorem get_modify_other {α : Type} (p : PerArm α) {x y : Arm} (f : α → α) (h : y ≠ x) :
    (p.modify x f).get y = p.get y := by cases x <;> cases y <;> first | rfl | exact absurd rfl h

@[simp] theorem get_modify_otherArm {α : Type} (p : PerArm α) (x : Arm) (f : α → α) :
    (p.modify x f).get (otherArm x) = p.get (otherArm x) := by cases x <;> rfl

@[simp] theorem get_modify_otherArm' {α : Type} (p : PerArm α) (x : Arm) (f : α → α) :
    (p.modify (otherArm x) f).get x = p.get x := by cases x <;> rfl

@[simp] theorem get_both {α : Type} (p : PerArm α) (x : Arm) (f : α → α) : (p.both f).get x = f (p.get x) := by
  cases x <;> rfl

@[simp] theorem otherArm_otherArm (x : Arm) : otherArm (otherArm x) = x := by cases x <;> rfl

theorem otherArm_ne (x : Arm) : otherArm x ≠ x := by cases x <;> decide

theorem ne_iff_otherArm {x y : Arm} : y ≠ x ↔ y = otherArm x := by cases x <;> cases y <;> decide

theorem get_kind_modify {α : Type} (p : PerKind α) (k j : TableKind) (f : α → α) :
    (p.modify k f).get j = if j = k then f (p.get j) else p.get j := by
  rcases k with _ | (_ | _) | _ | _ | _ <;> rcases j with _ | (_ | _) | _ | _ | _ <;> rfl

@[simp] theorem get_kind_modify_self {α : Type} (p : PerKind α) (k : TableKind) (f : α → α) :
    (p.modify k f).get k = f (p.get k) := by simp [get_kind_modify]

@[simp] theorem get_kind_all {α : Type} (p : PerKind α) (k : TableKind) (f : α → α) :
    (p.all f).get k = f (p.get k) := by rcases k with _ | (_ | _) | _ | _ | _ <;> rfl

theorem forall_arm {P : Arm → Prop} : (∀ x, P x) ↔ P .a ∧ P .b := ⟨fun h => ⟨h _, h _⟩, fun h x => by cases x; exact h.1; exact h.2⟩

theorem exists_arm {P : Arm → Prop} : (∃ x, P x) ↔ P .a ∨ P .b :=
  ⟨fun ⟨x, h⟩ => by cases x; exact .inl h; exact .inr h, fun h => h.elim (fun h => ⟨_, h⟩) (fun h => ⟨_, h⟩)⟩

/-- What holds of every table kind holds of the six. -/
theorem forall_kind {P : TableKind → Prop} : (∀ k, P k) ↔
    P .slotMap ∧ P (.armMap .a) ∧ P (.armMap .b) ∧ P .channelTable ∧ P .zoneTable ∧ P .stationRecord :=
  ⟨fun h => ⟨h _, h _, h _, h _, h _, h _⟩, fun h k => by rcases k with _ | (_ | _) | _ | _ | _ <;> simp_all⟩

/-! ## Updates -/

@[simp] theorem onCen_cenOf (s : State) (x : Arm) (f : CenArm → CenArm) : (s.onCen x f).cenOf x = f (s.cenOf x) :=
  get_modify_self ..
@[simp] theorem onThu_thuOf (s : State) (x : Arm) (f : ThuArm → ThuArm) : (s.onThu x f).thuOf x = f (s.thuOf x) :=
  get_modify_self ..
@[simp] theorem onTcu_tcuOf (s : State) (x : Arm) (f : TcuArm → TcuArm) : (s.onTcu x f).tcuOf x = f (s.tcuOf x) :=
  get_modify_self ..
@[simp] theorem onPcc_pccOf (s : State) (x : Arm) (f : PccArm → PccArm) : (s.onPcc x f).pccOf x = f (s.pccOf x) :=
  get_modify_self ..
@[simp] theorem onMgd_mgdOf (s : State) (x : Arm) (f : MgdArm → MgdArm) : (s.onMgd x f).mgdOf x = f (s.mgdOf x) :=
  get_modify_self ..
@[simp] theorem onTbs_tbsOf (s : State) (k : TableKind) (f : TableState → TableState) :
    (s.onTbs k f).tbsOf k = f (s.tbsOf k) := get_kind_modify_self ..

theorem onCen_cenOf_other (s : State) {x y : Arm} (f : CenArm → CenArm) (h : y ≠ x) :
    (s.onCen x f).cenOf y = s.cenOf y := get_modify_other _ _ h
theorem onThu_thuOf_other (s : State) {x y : Arm} (f : ThuArm → ThuArm) (h : y ≠ x) :
    (s.onThu x f).thuOf y = s.thuOf y := get_modify_other _ _ h
theorem onTcu_tcuOf_other (s : State) {x y : Arm} (f : TcuArm → TcuArm) (h : y ≠ x) :
    (s.onTcu x f).tcuOf y = s.tcuOf y := get_modify_other _ _ h
theorem onPcc_pccOf_other (s : State) {x y : Arm} (f : PccArm → PccArm) (h : y ≠ x) :
    (s.onPcc x f).pccOf y = s.pccOf y := get_modify_other _ _ h
theorem onMgd_mgdOf_other (s : State) {x y : Arm} (f : MgdArm → MgdArm) (h : y ≠ x) :
    (s.onMgd x f).mgdOf y = s.mgdOf y := get_modify_other _ _ h
theorem onTbs_tbsOf_other (s : State) {k j : TableKind} (f : TableState → TableState) (h : j ≠ k) :
    (s.onTbs k f).tbsOf j = s.tbsOf j := by simp [State.tbsOf, State.onTbs, get_kind_modify, h]

/-! ### `onCen` -/

@[simp] theorem onCen_riu (s : State) (x : Arm) (f : CenArm → CenArm) : (s.onCen x f).riu = s.riu := rfl
@[simp] theorem onCen_rqu (s : State) (x : Arm) (f : CenArm → CenArm) : (s.onCen x f).rqu = s.rqu := rfl
@[simp] theorem onCen_tbs (s : State) (x : Arm) (f : CenArm → CenArm) : (s.onCen x f).tbs = s.tbs := rfl
@[simp] theorem onCen_thu (s : State) (x : Arm) (f : CenArm → CenArm) : (s.onCen x f).thu = s.thu := rfl
@[simp] theorem onCen_tcu (s : State) (x : Arm) (f : CenArm → CenArm) : (s.onCen x f).tcu = s.tcu := rfl
@[simp] theorem onCen_pcc (s : State) (x : Arm) (f : CenArm → CenArm) : (s.onCen x f).pcc = s.pcc := rfl
@[simp] theorem onCen_mgd (s : State) (x : Arm) (f : CenArm → CenArm) : (s.onCen x f).mgd = s.mgd := rfl
@[simp] theorem onCen_evu (s : State) (x : Arm) (f : CenArm → CenArm) : (s.onCen x f).evu = s.evu := rfl
@[simp] theorem onCen_pending (s : State) (x : Arm) (f : CenArm → CenArm) : (s.onCen x f).pending = s.pending := rfl

/-! ### `onThu` -/

@[simp] theorem onThu_riu (s : State) (x : Arm) (f : ThuArm → ThuArm) : (s.onThu x f).riu = s.riu := rfl
@[simp] theorem onThu_rqu (s : State) (x : Arm) (f : ThuArm → ThuArm) : (s.onThu x f).rqu = s.rqu := rfl
@[simp] theorem onThu_tbs (s : State) (x : Arm) (f : ThuArm → ThuArm) : (s.onThu x f).tbs = s.tbs := rfl
@[simp] theorem onThu_cen (s : State) (x : Arm) (f : ThuArm → ThuArm) : (s.onThu x f).cen = s.cen := rfl
@[simp] theorem onThu_tcu (s : State) (x : Arm) (f : ThuArm → ThuArm) : (s.onThu x f).tcu = s.tcu := rfl
@[simp] theorem onThu_pcc (s : State) (x : Arm) (f : ThuArm → ThuArm) : (s.onThu x f).pcc = s.pcc := rfl
@[simp] theorem onThu_mgd (s : State) (x : Arm) (f : ThuArm → ThuArm) : (s.onThu x f).mgd = s.mgd := rfl
@[simp] theorem onThu_evu (s : State) (x : Arm) (f : ThuArm → ThuArm) : (s.onThu x f).evu = s.evu := rfl
@[simp] theorem onThu_pending (s : State) (x : Arm) (f : ThuArm → ThuArm) : (s.onThu x f).pending = s.pending := rfl
@[simp] theorem onThu_thu_channels (s : State) (x : Arm) (f : ThuArm → ThuArm) : (s.onThu x f).thu.channels = s.thu.channels := rfl
@[simp] theorem onThu_thu_restart (s : State) (x : Arm) (f : ThuArm → ThuArm) : (s.onThu x f).thu.restart = s.thu.restart := rfl
@[simp] theorem onThu_thu_aggregates (s : State) (x : Arm) (f : ThuArm → ThuArm) : (s.onThu x f).thu.aggregates = s.thu.aggregates := rfl

/-! ### `onTcu` -/

@[simp] theorem onTcu_riu (s : State) (x : Arm) (f : TcuArm → TcuArm) : (s.onTcu x f).riu = s.riu := rfl
@[simp] theorem onTcu_rqu (s : State) (x : Arm) (f : TcuArm → TcuArm) : (s.onTcu x f).rqu = s.rqu := rfl
@[simp] theorem onTcu_tbs (s : State) (x : Arm) (f : TcuArm → TcuArm) : (s.onTcu x f).tbs = s.tbs := rfl
@[simp] theorem onTcu_cen (s : State) (x : Arm) (f : TcuArm → TcuArm) : (s.onTcu x f).cen = s.cen := rfl
@[simp] theorem onTcu_thu (s : State) (x : Arm) (f : TcuArm → TcuArm) : (s.onTcu x f).thu = s.thu := rfl
@[simp] theorem onTcu_pcc (s : State) (x : Arm) (f : TcuArm → TcuArm) : (s.onTcu x f).pcc = s.pcc := rfl
@[simp] theorem onTcu_mgd (s : State) (x : Arm) (f : TcuArm → TcuArm) : (s.onTcu x f).mgd = s.mgd := rfl
@[simp] theorem onTcu_evu (s : State) (x : Arm) (f : TcuArm → TcuArm) : (s.onTcu x f).evu = s.evu := rfl
@[simp] theorem onTcu_pending (s : State) (x : Arm) (f : TcuArm → TcuArm) : (s.onTcu x f).pending = s.pending := rfl
@[simp] theorem onTcu_tcu_queue (s : State) (x : Arm) (f : TcuArm → TcuArm) : (s.onTcu x f).tcu.queue = s.tcu.queue := rfl
@[simp] theorem onTcu_tcu_workpiece (s : State) (x : Arm) (f : TcuArm → TcuArm) : (s.onTcu x f).tcu.workpiece = s.tcu.workpiece := rfl
@[simp] theorem onTcu_tcu_drainDue (s : State) (x : Arm) (f : TcuArm → TcuArm) : (s.onTcu x f).tcu.drainDue = s.tcu.drainDue := rfl

/-! ### `onPcc` -/

@[simp] theorem onPcc_riu (s : State) (x : Arm) (f : PccArm → PccArm) : (s.onPcc x f).riu = s.riu := rfl
@[simp] theorem onPcc_rqu (s : State) (x : Arm) (f : PccArm → PccArm) : (s.onPcc x f).rqu = s.rqu := rfl
@[simp] theorem onPcc_tbs (s : State) (x : Arm) (f : PccArm → PccArm) : (s.onPcc x f).tbs = s.tbs := rfl
@[simp] theorem onPcc_cen (s : State) (x : Arm) (f : PccArm → PccArm) : (s.onPcc x f).cen = s.cen := rfl
@[simp] theorem onPcc_thu (s : State) (x : Arm) (f : PccArm → PccArm) : (s.onPcc x f).thu = s.thu := rfl
@[simp] theorem onPcc_tcu (s : State) (x : Arm) (f : PccArm → PccArm) : (s.onPcc x f).tcu = s.tcu := rfl
@[simp] theorem onPcc_mgd (s : State) (x : Arm) (f : PccArm → PccArm) : (s.onPcc x f).mgd = s.mgd := rfl
@[simp] theorem onPcc_evu (s : State) (x : Arm) (f : PccArm → PccArm) : (s.onPcc x f).evu = s.evu := rfl
@[simp] theorem onPcc_pending (s : State) (x : Arm) (f : PccArm → PccArm) : (s.onPcc x f).pending = s.pending := rfl
@[simp] theorem onPcc_pcc_tips (s : State) (x : Arm) (f : PccArm → PccArm) : (s.onPcc x f).pcc.tips = s.pcc.tips := rfl
@[simp] theorem onPcc_pcc_ports (s : State) (x : Arm) (f : PccArm → PccArm) : (s.onPcc x f).pcc.ports = s.pcc.ports := rfl
@[simp] theorem onPcc_pcc_occupancy (s : State) (x : Arm) (f : PccArm → PccArm) : (s.onPcc x f).pcc.occupancy = s.pcc.occupancy := rfl

/-! ### `onMgd` -/

@[simp] theorem onMgd_riu (s : State) (x : Arm) (f : MgdArm → MgdArm) : (s.onMgd x f).riu = s.riu := rfl
@[simp] theorem onMgd_rqu (s : State) (x : Arm) (f : MgdArm → MgdArm) : (s.onMgd x f).rqu = s.rqu := rfl
@[simp] theorem onMgd_tbs (s : State) (x : Arm) (f : MgdArm → MgdArm) : (s.onMgd x f).tbs = s.tbs := rfl
@[simp] theorem onMgd_cen (s : State) (x : Arm) (f : MgdArm → MgdArm) : (s.onMgd x f).cen = s.cen := rfl
@[simp] theorem onMgd_thu (s : State) (x : Arm) (f : MgdArm → MgdArm) : (s.onMgd x f).thu = s.thu := rfl
@[simp] theorem onMgd_tcu (s : State) (x : Arm) (f : MgdArm → MgdArm) : (s.onMgd x f).tcu = s.tcu := rfl
@[simp] theorem onMgd_pcc (s : State) (x : Arm) (f : MgdArm → MgdArm) : (s.onMgd x f).pcc = s.pcc := rfl
@[simp] theorem onMgd_evu (s : State) (x : Arm) (f : MgdArm → MgdArm) : (s.onMgd x f).evu = s.evu := rfl
@[simp] theorem onMgd_pending (s : State) (x : Arm) (f : MgdArm → MgdArm) : (s.onMgd x f).pending = s.pending := rfl
@[simp] theorem onMgd_mgd_zones (s : State) (x : Arm) (f : MgdArm → MgdArm) : (s.onMgd x f).mgd.zones = s.mgd.zones := rfl

/-! ### `onTbs` -/

@[simp] theorem onTbs_riu (s : State) (k : TableKind) (f : TableState → TableState) : (s.onTbs k f).riu = s.riu := rfl
@[simp] theorem onTbs_rqu (s : State) (k : TableKind) (f : TableState → TableState) : (s.onTbs k f).rqu = s.rqu := rfl
@[simp] theorem onTbs_cen (s : State) (k : TableKind) (f : TableState → TableState) : (s.onTbs k f).cen = s.cen := rfl
@[simp] theorem onTbs_thu (s : State) (k : TableKind) (f : TableState → TableState) : (s.onTbs k f).thu = s.thu := rfl
@[simp] theorem onTbs_tcu (s : State) (k : TableKind) (f : TableState → TableState) : (s.onTbs k f).tcu = s.tcu := rfl
@[simp] theorem onTbs_pcc (s : State) (k : TableKind) (f : TableState → TableState) : (s.onTbs k f).pcc = s.pcc := rfl
@[simp] theorem onTbs_mgd (s : State) (k : TableKind) (f : TableState → TableState) : (s.onTbs k f).mgd = s.mgd := rfl
@[simp] theorem onTbs_evu (s : State) (k : TableKind) (f : TableState → TableState) : (s.onTbs k f).evu = s.evu := rfl
@[simp] theorem onTbs_pending (s : State) (k : TableKind) (f : TableState → TableState) : (s.onTbs k f).pending = s.pending := rfl

/-! ### `post` -/

@[simp] theorem post_riu (s : State) (c : EventSource) (d : Detail) : (post c d s).riu = s.riu := rfl
@[simp] theorem post_rqu (s : State) (c : EventSource) (d : Detail) : (post c d s).rqu = s.rqu := rfl
@[simp] theorem post_tbs (s : State) (c : EventSource) (d : Detail) : (post c d s).tbs = s.tbs := rfl
@[simp] theorem post_cen (s : State) (c : EventSource) (d : Detail) : (post c d s).cen = s.cen := rfl
@[simp] theorem post_thu (s : State) (c : EventSource) (d : Detail) : (post c d s).thu = s.thu := rfl
@[simp] theorem post_tcu (s : State) (c : EventSource) (d : Detail) : (post c d s).tcu = s.tcu := rfl
@[simp] theorem post_pcc (s : State) (c : EventSource) (d : Detail) : (post c d s).pcc = s.pcc := rfl
@[simp] theorem post_mgd (s : State) (c : EventSource) (d : Detail) : (post c d s).mgd = s.mgd := rfl
@[simp] theorem post_pending (s : State) (c : EventSource) (d : Detail) : (post c d s).pending = s.pending := rfl
@[simp] theorem post_evu_reportLevel (s : State) (c : EventSource) (d : Detail) : (post c d s).evu.reportLevel = s.evu.reportLevel := rfl

/-! ### `raise` -/

@[simp] theorem raise_riu (s : State) (x : Arm) (c : Cause) : (raise x c s).riu = s.riu := rfl
@[simp] theorem raise_rqu (s : State) (x : Arm) (c : Cause) : (raise x c s).rqu = s.rqu := rfl
@[simp] theorem raise_tbs (s : State) (x : Arm) (c : Cause) : (raise x c s).tbs = s.tbs := rfl
@[simp] theorem raise_cen (s : State) (x : Arm) (c : Cause) : (raise x c s).cen = s.cen := rfl
@[simp] theorem raise_thu (s : State) (x : Arm) (c : Cause) : (raise x c s).thu = s.thu := rfl
@[simp] theorem raise_tcu (s : State) (x : Arm) (c : Cause) : (raise x c s).tcu = s.tcu := rfl
@[simp] theorem raise_pcc (s : State) (x : Arm) (c : Cause) : (raise x c s).pcc = s.pcc := rfl
@[simp] theorem raise_evu (s : State) (x : Arm) (c : Cause) : (raise x c s).evu = s.evu := rfl
@[simp] theorem raise_pending (s : State) (x : Arm) (c : Cause) : (raise x c s).pending = s.pending := rfl
@[simp] theorem raise_mgd_zones (s : State) (x : Arm) (c : Cause) : (raise x c s).mgd.zones = s.mgd.zones := rfl

/-! ### `onTip` -/

@[simp] theorem onTip_riu (s : State) (t : Nat) (f : Tip → Tip) : (onTip t f s).riu = s.riu := rfl
@[simp] theorem onTip_rqu (s : State) (t : Nat) (f : Tip → Tip) : (onTip t f s).rqu = s.rqu := rfl
@[simp] theorem onTip_tbs (s : State) (t : Nat) (f : Tip → Tip) : (onTip t f s).tbs = s.tbs := rfl
@[simp] theorem onTip_cen (s : State) (t : Nat) (f : Tip → Tip) : (onTip t f s).cen = s.cen := rfl
@[simp] theorem onTip_thu (s : State) (t : Nat) (f : Tip → Tip) : (onTip t f s).thu = s.thu := rfl
@[simp] theorem onTip_tcu (s : State) (t : Nat) (f : Tip → Tip) : (onTip t f s).tcu = s.tcu := rfl
@[simp] theorem onTip_mgd (s : State) (t : Nat) (f : Tip → Tip) : (onTip t f s).mgd = s.mgd := rfl
@[simp] theorem onTip_evu (s : State) (t : Nat) (f : Tip → Tip) : (onTip t f s).evu = s.evu := rfl
@[simp] theorem onTip_pending (s : State) (t : Nat) (f : Tip → Tip) : (onTip t f s).pending = s.pending := rfl
@[simp] theorem onTip_pcc_ports (s : State) (t : Nat) (f : Tip → Tip) : (onTip t f s).pcc.ports = s.pcc.ports := rfl
@[simp] theorem onTip_pcc_arm (s : State) (t : Nat) (f : Tip → Tip) : (onTip t f s).pcc.arm = s.pcc.arm := rfl
@[simp] theorem onTip_pcc_occupancy (s : State) (t : Nat) (f : Tip → Tip) : (onTip t f s).pcc.occupancy = s.pcc.occupancy := rfl

/-! ### `moveTip` -/

@[simp] theorem moveTip_riu (s : State) (t : Nat) (l : TipLocation) : (moveTip t l s).riu = s.riu := rfl
@[simp] theorem moveTip_rqu (s : State) (t : Nat) (l : TipLocation) : (moveTip t l s).rqu = s.rqu := rfl
@[simp] theorem moveTip_tbs (s : State) (t : Nat) (l : TipLocation) : (moveTip t l s).tbs = s.tbs := rfl
@[simp] theorem moveTip_cen (s : State) (t : Nat) (l : TipLocation) : (moveTip t l s).cen = s.cen := rfl
@[simp] theorem moveTip_thu (s : State) (t : Nat) (l : TipLocation) : (moveTip t l s).thu = s.thu := rfl
@[simp] theorem moveTip_tcu (s : State) (t : Nat) (l : TipLocation) : (moveTip t l s).tcu = s.tcu := rfl
@[simp] theorem moveTip_mgd (s : State) (t : Nat) (l : TipLocation) : (moveTip t l s).mgd = s.mgd := rfl
@[simp] theorem moveTip_evu (s : State) (t : Nat) (l : TipLocation) : (moveTip t l s).evu = s.evu := rfl
@[simp] theorem moveTip_pending (s : State) (t : Nat) (l : TipLocation) : (moveTip t l s).pending = s.pending := rfl
@[simp] theorem moveTip_pcc_ports (s : State) (t : Nat) (l : TipLocation) : (moveTip t l s).pcc.ports = s.pcc.ports := rfl
@[simp] theorem moveTip_pcc_arm (s : State) (t : Nat) (l : TipLocation) : (moveTip t l s).pcc.arm = s.pcc.arm := rfl
@[simp] theorem moveTip_pcc_occupancy (s : State) (t : Nat) (l : TipLocation) : (moveTip t l s).pcc.occupancy = s.pcc.occupancy := rfl

/-! ### `setPort` -/

@[simp] theorem setPort_riu (s : State) (p : Nat) (v : PortState) : (setPort p v s).riu = s.riu := rfl
@[simp] theorem setPort_rqu (s : State) (p : Nat) (v : PortState) : (setPort p v s).rqu = s.rqu := rfl
@[simp] theorem setPort_tbs (s : State) (p : Nat) (v : PortState) : (setPort p v s).tbs = s.tbs := rfl
@[simp] theorem setPort_cen (s : State) (p : Nat) (v : PortState) : (setPort p v s).cen = s.cen := rfl
@[simp] theorem setPort_thu (s : State) (p : Nat) (v : PortState) : (setPort p v s).thu = s.thu := rfl
@[simp] theorem setPort_tcu (s : State) (p : Nat) (v : PortState) : (setPort p v s).tcu = s.tcu := rfl
@[simp] theorem setPort_mgd (s : State) (p : Nat) (v : PortState) : (setPort p v s).mgd = s.mgd := rfl
@[simp] theorem setPort_evu (s : State) (p : Nat) (v : PortState) : (setPort p v s).evu = s.evu := rfl
@[simp] theorem setPort_pending (s : State) (p : Nat) (v : PortState) : (setPort p v s).pending = s.pending := rfl
@[simp] theorem setPort_pcc_tips (s : State) (p : Nat) (v : PortState) : (setPort p v s).pcc.tips = s.pcc.tips := rfl
@[simp] theorem setPort_pcc_arm (s : State) (p : Nat) (v : PortState) : (setPort p v s).pcc.arm = s.pcc.arm := rfl
@[simp] theorem setPort_pcc_occupancy (s : State) (p : Nat) (v : PortState) : (setPort p v s).pcc.occupancy = s.pcc.occupancy := rfl

/-! ### `onSession` -/

@[simp] theorem onSession_riu (s : State) (x : Arm) (f : Session → Session) : (onSession x f s).riu = s.riu := rfl
@[simp] theorem onSession_rqu (s : State) (x : Arm) (f : Session → Session) : (onSession x f s).rqu = s.rqu := rfl
@[simp] theorem onSession_tbs (s : State) (x : Arm) (f : Session → Session) : (onSession x f s).tbs = s.tbs := rfl
@[simp] theorem onSession_cen (s : State) (x : Arm) (f : Session → Session) : (onSession x f s).cen = s.cen := rfl
@[simp] theorem onSession_thu (s : State) (x : Arm) (f : Session → Session) : (onSession x f s).thu = s.thu := rfl
@[simp] theorem onSession_tcu (s : State) (x : Arm) (f : Session → Session) : (onSession x f s).tcu = s.tcu := rfl
@[simp] theorem onSession_mgd (s : State) (x : Arm) (f : Session → Session) : (onSession x f s).mgd = s.mgd := rfl
@[simp] theorem onSession_evu (s : State) (x : Arm) (f : Session → Session) : (onSession x f s).evu = s.evu := rfl
@[simp] theorem onSession_pending (s : State) (x : Arm) (f : Session → Session) : (onSession x f s).pending = s.pending := rfl
@[simp] theorem onSession_pcc_tips (s : State) (x : Arm) (f : Session → Session) : (onSession x f s).pcc.tips = s.pcc.tips := rfl
@[simp] theorem onSession_pcc_ports (s : State) (x : Arm) (f : Session → Session) : (onSession x f s).pcc.ports = s.pcc.ports := rfl
@[simp] theorem onSession_pcc_occupancy (s : State) (x : Arm) (f : Session → Session) : (onSession x f s).pcc.occupancy = s.pcc.occupancy := rfl

/-! ### `setTrigger` -/

@[simp] theorem setTrigger_riu (s : State) (x : Arm) (t : Trigger) : (setTrigger x t s).riu = s.riu := rfl
@[simp] theorem setTrigger_rqu (s : State) (x : Arm) (t : Trigger) : (setTrigger x t s).rqu = s.rqu := rfl
@[simp] theorem setTrigger_tbs (s : State) (x : Arm) (t : Trigger) : (setTrigger x t s).tbs = s.tbs := rfl
@[simp] theorem setTrigger_cen (s : State) (x : Arm) (t : Trigger) : (setTrigger x t s).cen = s.cen := rfl
@[simp] theorem setTrigger_thu (s : State) (x : Arm) (t : Trigger) : (setTrigger x t s).thu = s.thu := rfl
@[simp] theorem setTrigger_pcc (s : State) (x : Arm) (t : Trigger) : (setTrigger x t s).pcc = s.pcc := rfl
@[simp] theorem setTrigger_mgd (s : State) (x : Arm) (t : Trigger) : (setTrigger x t s).mgd = s.mgd := rfl
@[simp] theorem setTrigger_evu (s : State) (x : Arm) (t : Trigger) : (setTrigger x t s).evu = s.evu := rfl
@[simp] theorem setTrigger_pending (s : State) (x : Arm) (t : Trigger) : (setTrigger x t s).pending = s.pending := rfl
@[simp] theorem setTrigger_tcu_queue (s : State) (x : Arm) (t : Trigger) : (setTrigger x t s).tcu.queue = s.tcu.queue := rfl
@[simp] theorem setTrigger_tcu_workpiece (s : State) (x : Arm) (t : Trigger) : (setTrigger x t s).tcu.workpiece = s.tcu.workpiece := rfl
@[simp] theorem setTrigger_tcu_drainDue (s : State) (x : Arm) (t : Trigger) : (setTrigger x t s).tcu.drainDue = s.tcu.drainDue := rfl

/-! ### `onTrigger` -/

@[simp] theorem onTrigger_riu (s : State) (x : Arm) (f : Trigger → Trigger) : (onTrigger x f s).riu = s.riu := rfl
@[simp] theorem onTrigger_rqu (s : State) (x : Arm) (f : Trigger → Trigger) : (onTrigger x f s).rqu = s.rqu := rfl
@[simp] theorem onTrigger_tbs (s : State) (x : Arm) (f : Trigger → Trigger) : (onTrigger x f s).tbs = s.tbs := rfl
@[simp] theorem onTrigger_cen (s : State) (x : Arm) (f : Trigger → Trigger) : (onTrigger x f s).cen = s.cen := rfl
@[simp] theorem onTrigger_thu (s : State) (x : Arm) (f : Trigger → Trigger) : (onTrigger x f s).thu = s.thu := rfl
@[simp] theorem onTrigger_pcc (s : State) (x : Arm) (f : Trigger → Trigger) : (onTrigger x f s).pcc = s.pcc := rfl
@[simp] theorem onTrigger_mgd (s : State) (x : Arm) (f : Trigger → Trigger) : (onTrigger x f s).mgd = s.mgd := rfl
@[simp] theorem onTrigger_evu (s : State) (x : Arm) (f : Trigger → Trigger) : (onTrigger x f s).evu = s.evu := rfl
@[simp] theorem onTrigger_pending (s : State) (x : Arm) (f : Trigger → Trigger) : (onTrigger x f s).pending = s.pending := rfl
@[simp] theorem onTrigger_tcu_queue (s : State) (x : Arm) (f : Trigger → Trigger) : (onTrigger x f s).tcu.queue = s.tcu.queue := rfl
@[simp] theorem onTrigger_tcu_workpiece (s : State) (x : Arm) (f : Trigger → Trigger) : (onTrigger x f s).tcu.workpiece = s.tcu.workpiece := rfl
@[simp] theorem onTrigger_tcu_drainDue (s : State) (x : Arm) (f : Trigger → Trigger) : (onTrigger x f s).tcu.drainDue = s.tcu.drainDue := rfl

/-! ### `setZone` -/

@[simp] theorem setZone_riu (s : State) (z : Nat) (v : Zone) : (setZone z v s).riu = s.riu := rfl
@[simp] theorem setZone_rqu (s : State) (z : Nat) (v : Zone) : (setZone z v s).rqu = s.rqu := rfl
@[simp] theorem setZone_tbs (s : State) (z : Nat) (v : Zone) : (setZone z v s).tbs = s.tbs := rfl
@[simp] theorem setZone_cen (s : State) (z : Nat) (v : Zone) : (setZone z v s).cen = s.cen := rfl
@[simp] theorem setZone_thu (s : State) (z : Nat) (v : Zone) : (setZone z v s).thu = s.thu := rfl
@[simp] theorem setZone_tcu (s : State) (z : Nat) (v : Zone) : (setZone z v s).tcu = s.tcu := rfl
@[simp] theorem setZone_pcc (s : State) (z : Nat) (v : Zone) : (setZone z v s).pcc = s.pcc := rfl
@[simp] theorem setZone_evu (s : State) (z : Nat) (v : Zone) : (setZone z v s).evu = s.evu := rfl
@[simp] theorem setZone_pending (s : State) (z : Nat) (v : Zone) : (setZone z v s).pending = s.pending := rfl
@[simp] theorem setZone_mgd_arm (s : State) (z : Nat) (v : Zone) : (setZone z v s).mgd.arm = s.mgd.arm := rfl

/-! ### `clearAt` -/

@[simp] theorem clearAt_riu (s : State) (n : Nat) : (clearAt n s).riu = s.riu := rfl
@[simp] theorem clearAt_rqu (s : State) (n : Nat) : (clearAt n s).rqu = s.rqu := rfl
@[simp] theorem clearAt_tbs (s : State) (n : Nat) : (clearAt n s).tbs = s.tbs := rfl
@[simp] theorem clearAt_cen (s : State) (n : Nat) : (clearAt n s).cen = s.cen := rfl
@[simp] theorem clearAt_thu (s : State) (n : Nat) : (clearAt n s).thu = s.thu := rfl
@[simp] theorem clearAt_tcu (s : State) (n : Nat) : (clearAt n s).tcu = s.tcu := rfl
@[simp] theorem clearAt_pcc (s : State) (n : Nat) : (clearAt n s).pcc = s.pcc := rfl
@[simp] theorem clearAt_mgd (s : State) (n : Nat) : (clearAt n s).mgd = s.mgd := rfl
@[simp] theorem clearAt_pending (s : State) (n : Nat) : (clearAt n s).pending = s.pending := rfl
@[simp] theorem clearAt_evu_reportLevel (s : State) (n : Nat) : (clearAt n s).evu.reportLevel = s.evu.reportLevel := rfl

/-! ### `writeReturn` -/

@[simp] theorem writeReturn_rqu (s : State) (o : Nat) (bs : List Byte) : (writeReturn o bs s).rqu = s.rqu := rfl
@[simp] theorem writeReturn_tbs (s : State) (o : Nat) (bs : List Byte) : (writeReturn o bs s).tbs = s.tbs := rfl
@[simp] theorem writeReturn_cen (s : State) (o : Nat) (bs : List Byte) : (writeReturn o bs s).cen = s.cen := rfl
@[simp] theorem writeReturn_thu (s : State) (o : Nat) (bs : List Byte) : (writeReturn o bs s).thu = s.thu := rfl
@[simp] theorem writeReturn_tcu (s : State) (o : Nat) (bs : List Byte) : (writeReturn o bs s).tcu = s.tcu := rfl
@[simp] theorem writeReturn_pcc (s : State) (o : Nat) (bs : List Byte) : (writeReturn o bs s).pcc = s.pcc := rfl
@[simp] theorem writeReturn_mgd (s : State) (o : Nat) (bs : List Byte) : (writeReturn o bs s).mgd = s.mgd := rfl
@[simp] theorem writeReturn_evu (s : State) (o : Nat) (bs : List Byte) : (writeReturn o bs s).evu = s.evu := rfl
@[simp] theorem writeReturn_pending (s : State) (o : Nat) (bs : List Byte) : (writeReturn o bs s).pending = s.pending := rfl
@[simp] theorem writeReturn_riu_inReset (s : State) (o : Nat) (bs : List Byte) : (writeReturn o bs s).riu.inReset = s.riu.inReset := rfl
@[simp] theorem writeReturn_riu_station (s : State) (o : Nat) (bs : List Byte) : (writeReturn o bs s).riu.station = s.riu.station := rfl
@[simp] theorem writeReturn_riu_address (s : State) (o : Nat) (bs : List Byte) : (writeReturn o bs s).riu.address = s.riu.address := rfl
@[simp] theorem writeReturn_riu_clock (s : State) (o : Nat) (bs : List Byte) : (writeReturn o bs s).riu.clock = s.riu.clock := rfl
@[simp] theorem writeReturn_riu_clockAtAlign (s : State) (o : Nat) (bs : List Byte) : (writeReturn o bs s).riu.clockAtAlign = s.riu.clockAtAlign := rfl
@[simp] theorem writeReturn_riu_frameAtAlign (s : State) (o : Nat) (bs : List Byte) : (writeReturn o bs s).riu.frameAtAlign = s.riu.frameAtAlign := rfl
@[simp] theorem writeReturn_riu_inFlight (s : State) (o : Nat) (bs : List Byte) : (writeReturn o bs s).riu.inFlight = s.riu.inFlight := rfl
@[simp] theorem writeReturn_riu_missed (s : State) (o : Nat) (bs : List Byte) : (writeReturn o bs s).riu.missed = s.riu.missed := rfl
@[simp] theorem writeReturn_riu_deadline (s : State) (o : Nat) (bs : List Byte) : (writeReturn o bs s).riu.deadline = s.riu.deadline := rfl
@[simp] theorem writeReturn_riu_ringLoss (s : State) (o : Nat) (bs : List Byte) : (writeReturn o bs s).riu.ringLoss = s.riu.ringLoss := rfl
@[simp] theorem writeReturn_riu_p1Up (s : State) (o : Nat) (bs : List Byte) : (writeReturn o bs s).riu.p1Up = s.riu.p1Up := rfl
@[simp] theorem writeReturn_riu_p2Up (s : State) (o : Nat) (bs : List Byte) : (writeReturn o bs s).riu.p2Up = s.riu.p2Up := rfl
@[simp] theorem writeReturn_riu_record (s : State) (o : Nat) (bs : List Byte) : (writeReturn o bs s).riu.record = s.riu.record := rfl
@[simp] theorem writeReturn_riu_turned (s : State) (o : Nat) (bs : List Byte) : (writeReturn o bs s).riu.turned = s.riu.turned := rfl
@[simp] theorem writeReturn_riu_sent2 (s : State) (o : Nat) (bs : List Byte) : (writeReturn o bs s).riu.sent2 = s.riu.sent2 := rfl

/-! ### `sendP1` -/

@[simp] theorem sendP1_rqu (s : State) (o : Bool) (g : RingFrame) : (sendP1 o g s).rqu = s.rqu := rfl
@[simp] theorem sendP1_tbs (s : State) (o : Bool) (g : RingFrame) : (sendP1 o g s).tbs = s.tbs := rfl
@[simp] theorem sendP1_cen (s : State) (o : Bool) (g : RingFrame) : (sendP1 o g s).cen = s.cen := rfl
@[simp] theorem sendP1_thu (s : State) (o : Bool) (g : RingFrame) : (sendP1 o g s).thu = s.thu := rfl
@[simp] theorem sendP1_tcu (s : State) (o : Bool) (g : RingFrame) : (sendP1 o g s).tcu = s.tcu := rfl
@[simp] theorem sendP1_pcc (s : State) (o : Bool) (g : RingFrame) : (sendP1 o g s).pcc = s.pcc := rfl
@[simp] theorem sendP1_mgd (s : State) (o : Bool) (g : RingFrame) : (sendP1 o g s).mgd = s.mgd := rfl
@[simp] theorem sendP1_evu (s : State) (o : Bool) (g : RingFrame) : (sendP1 o g s).evu = s.evu := rfl
@[simp] theorem sendP1_pending (s : State) (o : Bool) (g : RingFrame) : (sendP1 o g s).pending = s.pending := rfl
@[simp] theorem sendP1_riu_inReset (s : State) (o : Bool) (g : RingFrame) : (sendP1 o g s).riu.inReset = s.riu.inReset := rfl
@[simp] theorem sendP1_riu_station (s : State) (o : Bool) (g : RingFrame) : (sendP1 o g s).riu.station = s.riu.station := rfl
@[simp] theorem sendP1_riu_address (s : State) (o : Bool) (g : RingFrame) : (sendP1 o g s).riu.address = s.riu.address := rfl
@[simp] theorem sendP1_riu_clock (s : State) (o : Bool) (g : RingFrame) : (sendP1 o g s).riu.clock = s.riu.clock := rfl
@[simp] theorem sendP1_riu_clockAtAlign (s : State) (o : Bool) (g : RingFrame) : (sendP1 o g s).riu.clockAtAlign = s.riu.clockAtAlign := rfl
@[simp] theorem sendP1_riu_frameAtAlign (s : State) (o : Bool) (g : RingFrame) : (sendP1 o g s).riu.frameAtAlign = s.riu.frameAtAlign := rfl
@[simp] theorem sendP1_riu_inFlight (s : State) (o : Bool) (g : RingFrame) : (sendP1 o g s).riu.inFlight = s.riu.inFlight := rfl
@[simp] theorem sendP1_riu_missed (s : State) (o : Bool) (g : RingFrame) : (sendP1 o g s).riu.missed = s.riu.missed := rfl
@[simp] theorem sendP1_riu_deadline (s : State) (o : Bool) (g : RingFrame) : (sendP1 o g s).riu.deadline = s.riu.deadline := rfl
@[simp] theorem sendP1_riu_ringLoss (s : State) (o : Bool) (g : RingFrame) : (sendP1 o g s).riu.ringLoss = s.riu.ringLoss := rfl
@[simp] theorem sendP1_riu_p1Up (s : State) (o : Bool) (g : RingFrame) : (sendP1 o g s).riu.p1Up = s.riu.p1Up := rfl
@[simp] theorem sendP1_riu_p2Up (s : State) (o : Bool) (g : RingFrame) : (sendP1 o g s).riu.p2Up = s.riu.p2Up := rfl
@[simp] theorem sendP1_riu_record (s : State) (o : Bool) (g : RingFrame) : (sendP1 o g s).riu.record = s.riu.record := rfl
@[simp] theorem sendP1_riu_turned (s : State) (o : Bool) (g : RingFrame) : (sendP1 o g s).riu.turned = s.riu.turned := rfl
@[simp] theorem sendP1_riu_sent2 (s : State) (o : Bool) (g : RingFrame) : (sendP1 o g s).riu.sent2 = s.riu.sent2 := rfl

/-! ### `sendP2` -/

@[simp] theorem sendP2_rqu (s : State) (o : Bool) (g : RingFrame) : (sendP2 o g s).rqu = s.rqu := rfl
@[simp] theorem sendP2_tbs (s : State) (o : Bool) (g : RingFrame) : (sendP2 o g s).tbs = s.tbs := rfl
@[simp] theorem sendP2_cen (s : State) (o : Bool) (g : RingFrame) : (sendP2 o g s).cen = s.cen := rfl
@[simp] theorem sendP2_thu (s : State) (o : Bool) (g : RingFrame) : (sendP2 o g s).thu = s.thu := rfl
@[simp] theorem sendP2_tcu (s : State) (o : Bool) (g : RingFrame) : (sendP2 o g s).tcu = s.tcu := rfl
@[simp] theorem sendP2_pcc (s : State) (o : Bool) (g : RingFrame) : (sendP2 o g s).pcc = s.pcc := rfl
@[simp] theorem sendP2_mgd (s : State) (o : Bool) (g : RingFrame) : (sendP2 o g s).mgd = s.mgd := rfl
@[simp] theorem sendP2_evu (s : State) (o : Bool) (g : RingFrame) : (sendP2 o g s).evu = s.evu := rfl
@[simp] theorem sendP2_pending (s : State) (o : Bool) (g : RingFrame) : (sendP2 o g s).pending = s.pending := rfl
@[simp] theorem sendP2_riu_inReset (s : State) (o : Bool) (g : RingFrame) : (sendP2 o g s).riu.inReset = s.riu.inReset := rfl
@[simp] theorem sendP2_riu_station (s : State) (o : Bool) (g : RingFrame) : (sendP2 o g s).riu.station = s.riu.station := rfl
@[simp] theorem sendP2_riu_address (s : State) (o : Bool) (g : RingFrame) : (sendP2 o g s).riu.address = s.riu.address := rfl
@[simp] theorem sendP2_riu_clock (s : State) (o : Bool) (g : RingFrame) : (sendP2 o g s).riu.clock = s.riu.clock := rfl
@[simp] theorem sendP2_riu_clockAtAlign (s : State) (o : Bool) (g : RingFrame) : (sendP2 o g s).riu.clockAtAlign = s.riu.clockAtAlign := rfl
@[simp] theorem sendP2_riu_frameAtAlign (s : State) (o : Bool) (g : RingFrame) : (sendP2 o g s).riu.frameAtAlign = s.riu.frameAtAlign := rfl
@[simp] theorem sendP2_riu_inFlight (s : State) (o : Bool) (g : RingFrame) : (sendP2 o g s).riu.inFlight = s.riu.inFlight := rfl
@[simp] theorem sendP2_riu_missed (s : State) (o : Bool) (g : RingFrame) : (sendP2 o g s).riu.missed = s.riu.missed := rfl
@[simp] theorem sendP2_riu_deadline (s : State) (o : Bool) (g : RingFrame) : (sendP2 o g s).riu.deadline = s.riu.deadline := rfl
@[simp] theorem sendP2_riu_ringLoss (s : State) (o : Bool) (g : RingFrame) : (sendP2 o g s).riu.ringLoss = s.riu.ringLoss := rfl
@[simp] theorem sendP2_riu_p1Up (s : State) (o : Bool) (g : RingFrame) : (sendP2 o g s).riu.p1Up = s.riu.p1Up := rfl
@[simp] theorem sendP2_riu_p2Up (s : State) (o : Bool) (g : RingFrame) : (sendP2 o g s).riu.p2Up = s.riu.p2Up := rfl
@[simp] theorem sendP2_riu_record (s : State) (o : Bool) (g : RingFrame) : (sendP2 o g s).riu.record = s.riu.record := rfl
@[simp] theorem sendP2_riu_turned (s : State) (o : Bool) (g : RingFrame) : (sendP2 o g s).riu.turned = s.riu.turned := rfl
@[simp] theorem sendP2_riu_sent1 (s : State) (o : Bool) (g : RingFrame) : (sendP2 o g s).riu.sent1 = s.riu.sent1 := rfl

/-! ### `clearLines` -/

@[simp] theorem clearLines_rqu (s : State)  : (clearLines s).rqu = s.rqu := rfl
@[simp] theorem clearLines_tbs (s : State)  : (clearLines s).tbs = s.tbs := rfl
@[simp] theorem clearLines_cen (s : State)  : (clearLines s).cen = s.cen := rfl
@[simp] theorem clearLines_thu (s : State)  : (clearLines s).thu = s.thu := rfl
@[simp] theorem clearLines_tcu (s : State)  : (clearLines s).tcu = s.tcu := rfl
@[simp] theorem clearLines_pcc (s : State)  : (clearLines s).pcc = s.pcc := rfl
@[simp] theorem clearLines_mgd (s : State)  : (clearLines s).mgd = s.mgd := rfl
@[simp] theorem clearLines_evu (s : State)  : (clearLines s).evu = s.evu := rfl
@[simp] theorem clearLines_pending (s : State)  : (clearLines s).pending = s.pending := rfl
@[simp] theorem clearLines_riu_inReset (s : State)  : (clearLines s).riu.inReset = s.riu.inReset := rfl
@[simp] theorem clearLines_riu_station (s : State)  : (clearLines s).riu.station = s.riu.station := rfl
@[simp] theorem clearLines_riu_address (s : State)  : (clearLines s).riu.address = s.riu.address := rfl
@[simp] theorem clearLines_riu_clock (s : State)  : (clearLines s).riu.clock = s.riu.clock := rfl
@[simp] theorem clearLines_riu_clockAtAlign (s : State)  : (clearLines s).riu.clockAtAlign = s.riu.clockAtAlign := rfl
@[simp] theorem clearLines_riu_frameAtAlign (s : State)  : (clearLines s).riu.frameAtAlign = s.riu.frameAtAlign := rfl
@[simp] theorem clearLines_riu_inFlight (s : State)  : (clearLines s).riu.inFlight = s.riu.inFlight := rfl
@[simp] theorem clearLines_riu_missed (s : State)  : (clearLines s).riu.missed = s.riu.missed := rfl
@[simp] theorem clearLines_riu_deadline (s : State)  : (clearLines s).riu.deadline = s.riu.deadline := rfl
@[simp] theorem clearLines_riu_ringLoss (s : State)  : (clearLines s).riu.ringLoss = s.riu.ringLoss := rfl
@[simp] theorem clearLines_riu_p1Up (s : State)  : (clearLines s).riu.p1Up = s.riu.p1Up := rfl
@[simp] theorem clearLines_riu_p2Up (s : State)  : (clearLines s).riu.p2Up = s.riu.p2Up := rfl
@[simp] theorem clearLines_riu_record (s : State)  : (clearLines s).riu.record = s.riu.record := rfl
@[simp] theorem clearLines_riu_turned (s : State)  : (clearLines s).riu.turned = s.riu.turned := rfl

/-! ### `countTurned` -/

@[simp] theorem countTurned_rqu (s : State)  : (countTurned s).rqu = s.rqu := rfl
@[simp] theorem countTurned_tbs (s : State)  : (countTurned s).tbs = s.tbs := rfl
@[simp] theorem countTurned_cen (s : State)  : (countTurned s).cen = s.cen := rfl
@[simp] theorem countTurned_thu (s : State)  : (countTurned s).thu = s.thu := rfl
@[simp] theorem countTurned_tcu (s : State)  : (countTurned s).tcu = s.tcu := rfl
@[simp] theorem countTurned_pcc (s : State)  : (countTurned s).pcc = s.pcc := rfl
@[simp] theorem countTurned_mgd (s : State)  : (countTurned s).mgd = s.mgd := rfl
@[simp] theorem countTurned_evu (s : State)  : (countTurned s).evu = s.evu := rfl
@[simp] theorem countTurned_pending (s : State)  : (countTurned s).pending = s.pending := rfl
@[simp] theorem countTurned_riu_inReset (s : State)  : (countTurned s).riu.inReset = s.riu.inReset := rfl
@[simp] theorem countTurned_riu_station (s : State)  : (countTurned s).riu.station = s.riu.station := rfl
@[simp] theorem countTurned_riu_address (s : State)  : (countTurned s).riu.address = s.riu.address := rfl
@[simp] theorem countTurned_riu_clock (s : State)  : (countTurned s).riu.clock = s.riu.clock := rfl
@[simp] theorem countTurned_riu_clockAtAlign (s : State)  : (countTurned s).riu.clockAtAlign = s.riu.clockAtAlign := rfl
@[simp] theorem countTurned_riu_frameAtAlign (s : State)  : (countTurned s).riu.frameAtAlign = s.riu.frameAtAlign := rfl
@[simp] theorem countTurned_riu_inFlight (s : State)  : (countTurned s).riu.inFlight = s.riu.inFlight := rfl
@[simp] theorem countTurned_riu_missed (s : State)  : (countTurned s).riu.missed = s.riu.missed := rfl
@[simp] theorem countTurned_riu_deadline (s : State)  : (countTurned s).riu.deadline = s.riu.deadline := rfl
@[simp] theorem countTurned_riu_ringLoss (s : State)  : (countTurned s).riu.ringLoss = s.riu.ringLoss := rfl
@[simp] theorem countTurned_riu_p1Up (s : State)  : (countTurned s).riu.p1Up = s.riu.p1Up := rfl
@[simp] theorem countTurned_riu_p2Up (s : State)  : (countTurned s).riu.p2Up = s.riu.p2Up := rfl
@[simp] theorem countTurned_riu_record (s : State)  : (countTurned s).riu.record = s.riu.record := rfl
@[simp] theorem countTurned_riu_sent1 (s : State)  : (countTurned s).riu.sent1 = s.riu.sent1 := rfl
@[simp] theorem countTurned_riu_sent2 (s : State)  : (countTurned s).riu.sent2 = s.riu.sent2 := rfl

/-! ### `refreshRecord` and `keepOffset` -/

@[simp] theorem refreshRecord_rqu (s : State) : (refreshRecord s).rqu = s.rqu := rfl
@[simp] theorem refreshRecord_tbs (s : State) : (refreshRecord s).tbs = s.tbs := rfl
@[simp] theorem refreshRecord_cen (s : State) : (refreshRecord s).cen = s.cen := rfl
@[simp] theorem refreshRecord_thu (s : State) : (refreshRecord s).thu = s.thu := rfl
@[simp] theorem refreshRecord_tcu (s : State) : (refreshRecord s).tcu = s.tcu := rfl
@[simp] theorem refreshRecord_pcc (s : State) : (refreshRecord s).pcc = s.pcc := rfl
@[simp] theorem refreshRecord_mgd (s : State) : (refreshRecord s).mgd = s.mgd := rfl
@[simp] theorem refreshRecord_evu (s : State) : (refreshRecord s).evu = s.evu := rfl
@[simp] theorem refreshRecord_pending (s : State) : (refreshRecord s).pending = s.pending := rfl
@[simp] theorem refreshRecord_riu (s : State) : (refreshRecord s).riu = { s.riu with record := activeBank .stationRecord s } := rfl
@[simp] theorem keepOffset_rqu (s : State) (t : Nat) : (keepOffset t s).rqu = s.rqu := rfl
@[simp] theorem keepOffset_tbs (s : State) (t : Nat) : (keepOffset t s).tbs = s.tbs := rfl
@[simp] theorem keepOffset_cen (s : State) (t : Nat) : (keepOffset t s).cen = s.cen := rfl
@[simp] theorem keepOffset_thu (s : State) (t : Nat) : (keepOffset t s).thu = s.thu := rfl
@[simp] theorem keepOffset_tcu (s : State) (t : Nat) : (keepOffset t s).tcu = s.tcu := rfl
@[simp] theorem keepOffset_pcc (s : State) (t : Nat) : (keepOffset t s).pcc = s.pcc := rfl
@[simp] theorem keepOffset_mgd (s : State) (t : Nat) : (keepOffset t s).mgd = s.mgd := rfl
@[simp] theorem keepOffset_evu (s : State) (t : Nat) : (keepOffset t s).evu = s.evu := rfl
@[simp] theorem keepOffset_pending (s : State) (t : Nat) : (keepOffset t s).pending = s.pending := rfl

/-- What a return pass reads of the STATION RECORD is the active bank, the one that it puts in force (R133). -/
@[simp] theorem refreshRecord_recordInForce (s : State) : recordInForce (refreshRecord s) = stationRecord s := by
  simp only [recordInForce, stationRecord, refreshRecord_riu]
  cases h : activeBank .stationRecord s <;> simp_all [activeBank, State.tbsOf]

/-! ### `withReply` -/

@[simp] theorem withReply_riu (s : State) (c : Byte) (r : Reply) : (withReply c r s).riu = s.riu := rfl
@[simp] theorem withReply_tbs (s : State) (c : Byte) (r : Reply) : (withReply c r s).tbs = s.tbs := rfl
@[simp] theorem withReply_cen (s : State) (c : Byte) (r : Reply) : (withReply c r s).cen = s.cen := rfl
@[simp] theorem withReply_thu (s : State) (c : Byte) (r : Reply) : (withReply c r s).thu = s.thu := rfl
@[simp] theorem withReply_tcu (s : State) (c : Byte) (r : Reply) : (withReply c r s).tcu = s.tcu := rfl
@[simp] theorem withReply_pcc (s : State) (c : Byte) (r : Reply) : (withReply c r s).pcc = s.pcc := rfl
@[simp] theorem withReply_mgd (s : State) (c : Byte) (r : Reply) : (withReply c r s).mgd = s.mgd := rfl
@[simp] theorem withReply_evu (s : State) (c : Byte) (r : Reply) : (withReply c r s).evu = s.evu := rfl
@[simp] theorem withReply_pending (s : State) (c : Byte) (r : Reply) : (withReply c r s).pending = s.pending := rfl
@[simp] theorem withReply_rqu_awaiting (s : State) (c : Byte) (r : Reply) : (withReply c r s).rqu.awaiting = s.rqu.awaiting := rfl

end Sys2Proof.Laws
end

