-- ==== Sys2Proof/Laws/Requests.lean ====
section
/-! SUPPORT. How a request reaches its owner: the third common check passed, a served request is its owner's answer with the
reply recorded; and what an owner does when its checks pass. -/
namespace Sys2Proof.Laws

open Sys2Proof.Machine

variable {s : State}

/-- In CONFIG and RUN a code that CONFIG does not refuse is served. -/
theorem serve_inService {c : RequestCode} {own : State → Served} (h : InService s) (hc : refusedInConfig c = false) :
    serve c own s = withReply (requestByte c) (own s).reply (own s).state := by
  simp [serve, h.1, h.2, hc]

/-- In RUN every code is served. -/
theorem serve_inRun {c : RequestCode} {own : State → Served} (h : InRun s) :
    serve c own s = withReply (requestByte c) (own s).reply (own s).state := by
  simp [serve, h.1, h.2]

/-- RUN is a state in service. -/
theorem InRun.inService (h : InRun s) : InService s := ⟨h.1, by simp [h.2]⟩

/-- An arm code names its arm. -/
theorem withArm_code (x : Arm) (f : Arm → State → Served) : withArm (BitVec.ofNat 8 (armCode x)) f s = f x s := by
  cases x <;> rfl

/-- A kind code names its kind. -/
theorem withKind_code (k : TableKind) (f : TableKind → State → Served) :
    withKind (BitVec.ofNat 8 (kindCode k)) f s = f k s := by
  rcases k with _ | (_ | _) | _ | _ | _ <;> rfl

/-- A code that is no arm's is refused. -/
theorem withArm_other {v : Byte} (h : 1 < v.toNat) (f : Arm → State → Served) : withArm v f s = refuse .badParam s := by
  have h0 : v ≠ 0 := by rintro rfl; simp at h
  have h1 : v ≠ 1 := by rintro rfl; simp at h
  rw [withArm, armOf, if_neg h0, if_neg h1]

/-- Checks that all pass. -/
theorem afterChecks_pass {cs : List (Bool × Result)} {f : State → Served} (h : ∀ c ∈ cs, c.1 = false) :
    afterChecks cs f s = f s := by
  have : firstRefusal cs = none := by
    induction cs with
    | nil => rfl
    | cons c cs ih => simp [firstRefusal, h c (by simp), ih (fun d hd => h d (by simp [hd]))]
  simp [afterChecks, this]

end Sys2Proof.Laws
end

