-- ==== Sys2Proof/Laws/Settle.lean ====
section
/-! SUPPORT. A block with nothing due: each due step, the settlement and the passing of a time that meets no deadline leave
it as it is, but for the clock. -/
namespace Sys2Proof.Laws

open Sys2Proof.Machine

variable {s : State} {x : Arm}

/-- A step that is not due is no step. -/
theorem resolveTouch_quiet (h : (s.tcuOf x).touchDue ≠ .resolve) : resolveTouch x s = s := by
  unfold resolveTouch
  split
  · exact absurd ‹_› h
  · rfl

theorem lateResolution_quiet (h : (s.tcuOf x).touchDue ≠ .late) : lateResolution x s = s := if_neg h

theorem dropComplete_quiet (h : (s.pccOf x).changeDue = false) : dropComplete x s = s := by simp [dropComplete, h]

theorem pickComplete_quiet {l : Bool} (h : (s.pccOf x).changeDue = false) : pickComplete x l s = s := by
  simp [pickComplete, h]

theorem deferredRelease_quiet {z : Nat} (h : releaseDue s z = false) : deferredRelease z s = s := by
  simp [deferredRelease, h]

theorem drainPoints_quiet (h : s.tcu.drainDue = none) : drainPoints s = s := by simp [drainPoints, h]

theorem rearmExpiry_quiet (h : triggerOf s x ≠ .rearm 0) : rearmExpiry x s = s := if_neg h

theorem autoAdvance_quiet (h : (s.thuOf x).countdown ≠ some 0) : autoAdvance x s = s := by
  simp [autoAdvance, advanceDue, h]

theorem stepTimeout_quiet (h : (sessionOf s x).timer ≠ some 0) : stepTimeout x s = s := by simp [stepTimeout, h]

theorem checkComplete_quiet {k : TableKind} (h : checkDue (s.tbsOf k) = false) : checkComplete k s = s := by
  unfold checkComplete
  dsimp only
  split
  · simp [checkDue, *] at h
  · rfl

theorem takeAwaiting_quiet (h : s.rqu.awaiting = none) : takeAwaiting s = s := by simp [takeAwaiting, h]

theorem foldl_id {α β : Type} {f : β → α → β} {b : β} {l : List α} (h : ∀ a ∈ l, f b a = b) : l.foldl f b = b := by
  induction l with
  | nil => rfl
  | cons a l ih => rw [List.foldl_cons, h a (by simp)]; exact ih (fun c hc => h c (by simp [hc]))

/-- The settlement of a pass leaves a block with nothing due as it is. -/
theorem settlePass_quiet (h : NothingDue s) : settlePass s = s := by
  obtain ⟨-, hx, hd, hz, hk⟩ := h
  have hr : ∀ x, resolveTouch x s = s := fun x => resolveTouch_quiet (by simp [(hx x).1])
  have hl : ∀ x, lateResolution x s = s := fun x => lateResolution_quiet (by simp [(hx x).1])
  have hp : deferredReleases s = s := foldl_id (fun z m => deferredRelease_quiet (hz z (by simpa using m)))
  have hc : checkCompletions s = s := foldl_id (fun k _ => checkComplete_quiet (hk k))
  simp only [settlePass, bothArms, hr, hl, dropComplete_quiet (hx _).2.1, pickComplete_quiet (hx _).2.1, hp,
    drainPoints_quiet hd, hc, rearmExpiry_quiet (hx _).2.2.1]

/-- The settlement before a frame leaves a block with nothing due as it is. -/
theorem settleFrame_quiet (h : NothingDue s) : settleFrame s = s := by
  simp only [settleFrame, takeAwaiting_quiet h.1, settlePass_quiet h, bothArms, stepTimeout_quiet (h.2.1 _).2.2.2.2,
    autoAdvance_quiet (h.2.1 _).2.2.2.1]

/-- What is due before the clock runs on is nothing in a block with nothing due. -/
theorem settleBefore_quiet {e : Nat} (h : NothingDue s) : settleBefore e s = s := by
  rw [settleBefore, settleFrame_quiet h, settlePass_quiet h, ite_self]

/-- A time that leaves no deadline behind only runs the clock on. -/
theorem runClock_ahead {e : Nat} (h : DeadlineAhead e s) :
    runClock e s = { s with riu := { s.riu with clock := clockAfter s.riu.clock e } } := by
  unfold runClock
  unfold DeadlineAhead at h
  dsimp only
  split <;> simp_all

/-- A frame arrives at P1 at a block with nothing due. -/
theorem arriveP1_quiet {e : Nat} (h : NothingDue s) (hd : DeadlineAhead e s) :
    arriveP1 e s = clearLines { s with riu := { s.riu with clock := clockAfter s.riu.clock e } } := by
  rw [arriveP1, settleFrame_quiet h, runClock_ahead hd]

/-- A frame that begins no period arrives at a block with nothing due. -/
theorem arrive_quiet {e : Nat} (h : NothingDue s) (hd : DeadlineAhead e s) :
    arrive e s = clearLines { s with riu := { s.riu with clock := clockAfter s.riu.clock e } } := by
  rw [arrive, takeAwaiting_quiet h.1, settleBefore_quiet h, runClock_ahead hd]

/-- A cycle frame arrives at P2 at a block with nothing due. -/
theorem arriveBack_quiet {e : Nat} {f : RingFrame} (h : NothingDue s) (hd : DeadlineAhead e s) :
    arriveBack e f s = clearLines { s with riu := { s.riu with clock := clockAfter s.riu.clock e } } := by
  rw [arriveBack, arrive_quiet h hd, settlePass_quiet h, runClock_ahead hd, ite_self]

/-- Time passes at a block with nothing due. -/
theorem passTime_quiet {e : Nat} (h : NothingDue s) (hd : DeadlineAhead e s) :
    passTime e s = { s with riu := { s.riu with clock := clockAfter s.riu.clock e } } := by
  rw [passTime, takeAwaiting_quiet h.1, settleBefore_quiet h, ite_self, runClock_ahead hd]

end Sys2Proof.Laws
end

