-- ==== Sys2Proof/Laws/Tables.lean ====
section
/-! SUPPORT. The content rules: what an unbroken list of rules says, and how a bank's own rules stand to the rules against
the active banks of other kinds. -/
namespace Sys2Proof.Laws

open Machine

/-- No rule is broken exactly when every rule holds (R126). -/
theorem firstBroken_eq_none {rs : List ContentRule} : firstBroken rs = none ↔ ∀ r ∈ rs, r.holds = true := by
  induction rs with
  | nil => simp [firstBroken]
  | cons r rs ih =>
    cases hr : r.holds with
    | true => simp [firstBroken, hr, ih]
    | false => cases hb : firstBroken rs <;> simp [firstBroken, hr, hb]

/-- A rule that concerns a bank alone is among its rules against any window and any slots, or holds of every bank. -/
theorem own_rule {k : TableKind} {b : Bank} {r : ContentRule} (window : Option Nat) (slots : Option Bank)
    (h : r ∈ rulesAgainst k b none none) : r ∈ rulesAgainst k b window slots ∨ r.holds = true := by
  cases k with
  | slotMap =>
    simp only [rulesAgainst, slotMapRules, slotWindowRules, List.mem_flatMap, List.mem_append] at h ⊢
    obtain ⟨u, hu, (h | h) | h⟩ := h
    · exact .inl ⟨u, hu, .inl (.inl h)⟩
    · cases h
    · exact .inl ⟨u, hu, .inr h⟩
  | stationRecord =>
    simp only [rulesAgainst, stationRules, List.mem_cons] at h ⊢
    obtain h | rfl | h := h
    · exact .inl (.inl h)
    · exact .inr rfl
    · exact .inl (.inr (.inr h))
  | armMap x => exact .inl h
  | channelTable => exact .inl h
  | zoneTable => exact .inl h

/-- A bank without a broken content rule keeps the rules that concern it alone. -/
theorem keepsRules_of_check {k : TableKind} {b : Bank} {s : State} (h : firstBroken (contentRules k b s) = none) :
    keepsRules k b = true := by
  rw [keepsRules, List.all_eq_true]
  exact fun r hr => (own_rule _ _ hr).elim (firstBroken_eq_none.mp h r) id

end Sys2Proof.Laws
end

