-- ==== Sys2Proof/Tests/Slice0.lean ====
section
/-! SUPPORT. Tests: the refusals of `WellFormed`, numbers and steps against the spec's worked examples, and for each
statement with hypotheses a state that meets them. -/
namespace Sys2Proof.Tests

open Machine Laws

-- One declaration at a time: each kernel check below waits for those before it, and waiting threads add up.
set_option Elab.async false

/-! ## Small states -/

/-- A word that holds a signed number. -/
def sw (v : Int) : Word := BitVec.ofInt 32 v

/-- The STATION RECORD of 6.6 and 11. -/
def record66 : Bank := [(0, 64), (1, 1000), (2, 8), (4, 2), (5, 4), (6, 400), (7, 500), (8, 500)]

/-- The SLOT MAP of 11.1. -/
def slots111 : Bank :=
  [(0, 1), (2, 320), (3, 1), (4, 1), (5, 344), (6, 2), (8, 368), (9, 2), (10, 1), (11, 388), (12, 2), (13, 2), (14, 408),
    (15, 3), (17, 428), (18, 3), (19, 1), (20, 436), (21, 4), (23, 444)]

/-- Error table `i` with start 0, pitch 100,000,000 nm, and the nodes listed. -/
def tableAt (i count : Nat) (nodes : List (Nat × Int)) : Bank :=
  (68 + 69 * i + 2, 100000000) :: (68 + 69 * i + 3, BitVec.ofNat 32 count) ::
    nodes.map (fun n => (68 + 69 * i + 4 + n.1, sw n.2))

/-- A table of equal nodes. -/
def flat (i count : Nat) (v : Int) : Bank := tableAt i count ((List.range count).map (fun n => (n, v)))

/-- The ARM MAP A of 1.11, with the cell offset 0, signs +1, polarity RISING and rearm interval of 3.8. -/
def map111 : Bank :=
  [(0, 20000), (1, sw (-1250000)), (2, 255), (3, 10500), (4, sw (-100000000)), (5, 255), (6, 1805032704), (7, 1), (10, 1),
    (11, 1000), (12, 12345678), (15, sw (-10000000)), (16, 255), (17, 1500000000), (21, 1),
    (22, 5000), (28, 2400000000), (32, 1), (33, 5000), (35, sw (-2000)), (38, 4), (39, 11)]
  ++ tableAt 0 61 [(29, 12400), (30, 13000), (60, 21000)] ++ tableAt 2 61 [(29, -4100), (30, -4300), (60, -9000)]
  ++ flat 4 16 2000 ++ flat 8 26 (-1500) ++ flat 9 16 3000 ++ flat 10 16 (-1000) ++ flat 11 16 2000

/-- A small ARM MAP: one count is one nm, no cell offset, the record's signs +1, rearm interval 4. -/
def map1 : Bank :=
  [(0, 1000), (6, 4000000000), (10, 1), (11, 1000), (17, 4000000000), (21, 1), (22, 1000), (28, 4000000000), (32, 1),
    (36, 300000000), (38, 4), (39, 15)]

/-- A present tip with an identity code at a location. -/
def tipAt (code : BitVec 16) (l : TipLocation) : Tip :=
  { Tip.reset with present := true, code := code, location := l, airTemp := 20400, latency := 30 }

/-- The block in CONFIG at address 7. -/
def inConfig : State :=
  { State.reset with
    riu := { State.reset.riu with station := .config, address := some 7 },
    mgd := { Mgd.reset with arm := Mgd.reset.arm.both (fun g => { g with causes := causeOnly .mode }) } }

/-- The block in RUN at address 7: a STATION RECORD, a SLOT MAP and arm A's ARM MAP active, tip 1 on arm A, tip 2 in port
3, tip 3 in port 5, port 4 empty, tip 4 ABSENT. -/
def inRun : State :=
  { State.reset with
    riu := { State.reset.riu with station := .run, address := some 7, deadline := some 1500000 },
    tbs :=
      { tbsReset with
        slotMap := { TableState.reset with active := some slots111, generation := 1 },
        armMapA := { TableState.reset with active := some map1, generation := 1 },
        stationRecord := { TableState.reset with active := some record66, generation := 1 } },
    cen := ⟨{ CenArm.reset with inForce := some ⟨map1, 1⟩ }, CenArm.reset⟩,
    pcc :=
      { Pcc.reset with
        tips := (((Pcc.reset.tips.set 0 (tipAt 1101 (.onArm .a))).set 1 (tipAt 1102 (.port 3))).set 2
          (tipAt 1103 (.port 5))).set 3 (tipAt 1104 .absent),
        ports := ((Pcc.reset.ports.set 3 (.holds 2)).set 4 .empty).set 5 (.holds 3) } }

/-- The latch record of a touch of 3.8. -/
def latch38 : Latch := ⟨1180000, 1150000, 41, 0, false, false, 5⟩

/-- Arm A's trigger set. -/
def withTrigger (t : Trigger) (s : State) : State := setTrigger .a t s

/-- A history entry of 3.8 at a capture time. -/
def entryAt (capture : BitVec 64) (t : Vec3) : HistoryEntry := ⟨t, capture, 1, some ⟨7, 2⟩, 1, 12⟩

/-- Zone `z`'s reservation set. -/
def withZone (z : Nat) (v : Zone) (s : State) : State := setZone z v s

/-- Arm `x` in a session, its trigger SUPPRESSED. -/
def inSession (x : Arm) (c : Session) (s : State) : State :=
  setTrigger x .suppressed (s.onPcc x (fun p => { p with session := c }))

/-- Arm A in the PICK step of tip 2 from port 3, holding zone 0, its head having read a code. -/
def picking (code : BitVec 16) : State :=
  (withZone 0 (.held .a false false) (inSession .a ⟨.pick, none, none, some 2, some 3, some 5, none⟩
    { inRun with pcc := { inRun.pcc with tips := inRun.pcc.tips.set 0 (tipAt 1101 .absent) } })).onPcc .a
    (fun p => { p with changeDue := true, codeLast := code })

/-- A cycle frame whose payload holds some bytes. -/
def frame (bytes : List (Nat × Byte)) : RingFrame := cycleFrame 1 1000000 bytes

/-! ## Ill-formed commands are refused, a well-formed one is not -/

theorem test_wf_clock_time : Instr.wellFormed (.triggerEdge (2 ^ 64) .a true) = false := by decide
theorem test_wf_payload_order : Instr.wellFormed (.cycleFrameReturn 0 (frame [(2, 1), (1, 1)]) ⟨[], [], [], []⟩) = false := by
  decide
theorem test_wf_payload_zero : Instr.wellFormed (.badCheckFrame 0 .p1 (frame [(2, 0)]) false) = false := by decide
theorem test_wf_payload_length : Instr.wellFormed (.badCheckFrame 0 .p1 (frame [(1472, 1)]) false) = false := by decide
theorem test_wf_cycle_kind :
    Instr.wellFormed (.cycleFrameOutbound 0 { frame [] with etherType := 0 } ⟨false, false, []⟩ ⟨[], [], [], []⟩) = false := by
  decide
theorem test_wf_wrong_length : Instr.wellFormed (.wrongLengthFrame 0 .p1 (frame []) false) = false := by decide
theorem test_wf_link_check : Instr.wellFormed (.linkCheckFrame 0 .p1 (frame [])) = false := by decide
theorem test_wf_other : Instr.wellFormed (.otherFrame 0 .p1 (frame [])) = false := by decide
theorem test_wf_zone : Instr.wellFormed (.deferredRelease 8) = false := by decide
theorem test_wf_order_zone : Instr.wellFormed (.cycleFrameReturn 0 (frame []) ⟨[.release 8], [], [], []⟩) = false := by decide
theorem test_wf_channels : Instr.wellFormed (.cycleFrameReturn 0 (frame []) ⟨[], [24], [], []⟩) = false := by decide
theorem test_wf_aggregates : Instr.wellFormed (.cycleFrameReturn 0 (frame []) ⟨[], [], [8], []⟩) = false := by decide
theorem test_wf_ports : Instr.wellFormed (.cycleFrameReturn 0 (frame []) ⟨[], [], [], [12]⟩) = false := by decide
theorem test_wf_accepted :
    Instr.wellFormed (.cycleFrameReturn 0 (frame [(1471, 255)]) ⟨[.release 7], [23], [7], [11]⟩) = true := by decide

/-! ## Numbers of the worked examples -/

/-- R9, R11: ties go away from zero; R11's example. -/
theorem test_rounding_examples : roundDiv (-3 * 50000000) 100000000 = -2 ∧ roundDiv (3 * 50000000) 100000000 = 2
    ∧ roundDiv (-7 * 1250) 1000 = -9 := by decide

/-- R17: the rows of its table. -/
theorem test_output_modes :
    [Rounding.nearestEven, .towardZero, .towardPlus, .towardMinus].map (fun m =>
      [1062344928, 1399994952, -1234567895, -1234567885].map (roundOutput m))
      = [[106234493, 139999495, -123456790, -123456788], [106234492, 139999495, -123456789, -123456788],
        [106234493, 139999496, -123456789, -123456788], [106234492, 139999495, -123456790, -123456789]] := by decide

/-- 1.11: the machine position, the exact tip position and the output of the worked correction. -/
theorem test_worked_correction :
    let a : AppliedSet := ⟨⟨23400, false, false⟩, ⟨21800, false, false⟩, ⟨22100, false, false⟩, ⟨26500, false, false⟩,
      ⟨21200, false, false⟩, 12⟩
    chain map111 a ⟨0, 250000000, -50000000⟩ .nearestEven ⟨150000123, 800000000, 290000000⟩
      = ⟨⟨2998876570, 812344778, 1449994202⟩, ⟨2998876120, 1062344928, 1399994952⟩, 0,
        ⟨299887612, 106234493, 139999495⟩, 0⟩ := by decide +kernel

/-- 1.11, first variant: beyond the mapped span the end nodes are used and the axis is recorded. -/
theorem test_beyond_the_span :
    lookup map111 0 6020000000 = ⟨21000, true⟩ ∧ lookup map111 2 6020000000 = ⟨-9000, true⟩
      ∧ lookup map111 0 6000000000 = ⟨21000, false⟩ ∧ lookup map111 1 6020000000 = ⟨0, false⟩ := by decide +kernel

/-- 2.8: the samples of channel 8, at T + 100 ms, 200 ms, 300 ms and 400 ms, and the variant with the fault persisting. -/
theorem test_worked_channel :
    let r : ChannelRecord := ⟨some 6, 2, 0, 15000, 45000, 50, 2, 3⟩
    let c0 : Channel := ⟨.valid, some ⟨6656000, 26000, 5000000000⟩, 0, none, some 0⟩
    let c1 := (updateChannel r 5100000000 ⟨25996, true, 1⟩ c0).1
    let c2 := (updateChannel r 5200000000 ⟨0, false, 2⟩ c1).1
    let c3 := (updateChannel r 5300000000 ⟨31000, true, 3⟩ c2).1
    c1.filter = some ⟨6655744, 25996, 5100000000⟩ ∧ (c2.state, c2.count, c2.reason) = (.held, 1, some .status)
      ∧ (c3.state, c3.count, c3.reason) = (.held, 2, some .rate)
      ∧ (updateChannel r 5400000000 ⟨25990, true, 4⟩ c3).1 = ⟨.valid, some ⟨6655168, 25990, 5400000000⟩, 0, some .rate, some 4⟩
      ∧ (updateChannel r 5400000000 ⟨0, false, 4⟩ c3).2 = some (.failed .status)
      ∧ filteredValue 6655168 = 25997 := by decide

/-- 2.8: the means of the WORKPIECE aggregate. -/
theorem test_worked_means : meanOf [26000, 26010] = 26005 ∧ meanOf [25997, 26010] = 26004 ∧ meanOf [26010] = 26010
    ∧ meanOf [25950, 26010] = 25980 := by decide

/-- 11.1 and 6.6: the weighted sums of the SLOT MAP and of the STATION RECORD. -/
theorem test_worked_sums :
    (∀ q ∈ contentRules .stationRecord record66 State.reset, q.holds = true)
      ∧ ((List.range 48).map (fun a => BitVec.ofNat 32 (a + 1) * Memory.read slots111 a)).sum = 44950
      ∧ ((List.range 16).map (fun a => BitVec.ofNat 32 (a + 1) * Memory.read record66 a)).sum = 13422 := by decide +kernel

/-! ## Steps of the worked sequences -/

/-- The state a command leaves. -/
def after (c : Instr) (s : State) : State :=
  match exec c s with
  | .next t => t
  | _ => s

/-- The exchange a request leaves. -/
def reply (c : Instr) (s : State) : Option Result × List Word :=
  ((after c s).rqu.exchange.result, (after c s).rqu.exchange.data)

/-- 3.8: the block before the edge, and with the history of the resolving pass. -/
def measuring : State :=
  { inRun with
    riu := { inRun.riu with clock := 1000000 },
    tbs := { inRun.tbs with stationRecord := { TableState.reset with
      active := some [(1, 250), (4, 2), (5, 4), (6, 400), (7, 500), (8, 500)] } },
    cen := ⟨{ CenArm.reset with
      inForce := some ⟨map111, 1⟩,
      history := [entryAt 500000 ⟨0, 0, 0⟩, entryAt 750000 ⟨0, 0, 0⟩,
        entryAt 1000000 ⟨2998876120, 1062344928, 1399994952⟩, entryAt 1250000 ⟨2998926120, 1062344928, 1399984952⟩] },
      CenArm.reset⟩,
    thu := { Thu.reset with arm := Thu.reset.arm.both (fun t => { t with applied :=
      ⟨⟨23400, false, false⟩, ⟨21800, false, false⟩, ⟨22100, false, false⟩, ⟨26500, false, false⟩, ⟨21200, false, false⟩,
        12⟩ }) },
    tcu := { Tcu.reset with
      arm := ⟨⟨.armed, 41, true, 5, .none⟩, TcuArm.reset⟩, workpiece := ⟨⟨1000000000, 500000000, 1000000000⟩, 11700, true⟩ },
    pcc := { Pcc.reset with tips := Pcc.reset.tips.set 6 { tipAt 1107 (.onArm .a) with latency := 30000, revision := 2 } } }

/-- 3.8: the latch record of the edge. -/
theorem test_worked_edge : triggerOf (after (.triggerEdge 180000 .a true) measuring) .a = .latched latch38 := by decide +kernel

/-- 3.8: the point record of the touch, and the rearm countdown. -/
theorem test_worked_touch :
    let t := after (.touchResolve .a) (measuring.onTcu .a (fun u => { u with trigger := .latched latch38, touchDue := .resolve }))
    t.tcu.queue = [⟨.a, 41, some ⟨7, 2⟩, 5, 12, 1, 1180000, ⟨299875410, 106230216, 139995853⟩, 256⟩]
      ∧ triggerOf t .a = .rearm 4 := by decide +kernel

/-- 3.8, variant: the late resolution builds the point from the newest entry and marks it LATE. -/
theorem test_late_resolution :
    ((after (.lateResolution .a) (measuring.onTcu .a (fun u => { u with trigger := .latched latch38, touchDue := .late }))).tcu.queue.map
      (fun p => (p.flags.getLsbD 2, p.flags.getLsbD 0, p.seq))) = [(true, false, 41)] := by decide +kernel

/-- A map of an arm with the cell offset, the signs and the envelope radius of arm B in 5.10. -/
def map510 : Bank :=
  [(8, 2705032704), (9, 1), (10, sw (-1)), (19, 3000000000), (21, sw (-1)), (32, 1), (36, 300000000), (39, 15)]

/-- A ZONE TABLE whose zone 3 is that of 5.10. -/
def zones510 : Bank :=
  let lo (v : Int) : Nat := (BitVec.ofInt 40 v).toNat
  let s := lo 2000000000 + 2 ^ 40 * lo (-800000000) + 2 ^ 80 * lo 0 + 2 ^ 120 * lo 3500000000 + 2 ^ 160 * lo 800000000
    + 2 ^ 200 * lo 2000000000 + 2 ^ 240
  ((List.range 8).map (fun i => (24 + i, BitVec.ofNat 32 (s / 2 ^ (32 * i))))).filter (fun c => decide (c.2 ≠ 0))

/-- 5.10: arm A holds zone 3, and the zone table is active. -/
def guarded : State :=
  { inRun with
    tbs := { inRun.tbs with zoneTable := { TableState.reset with active := some zones510, generation := 1 } },
    cen := ⟨inRun.cen.a, { CenArm.reset with inForce := some ⟨map510, 1⟩ }⟩,
    mgd := { Mgd.reset with zones := Mgd.reset.zones.set 3 (.held .a false false) } }

/-- 5.10: on the widened bound arm B is inside and is stopped; 10 nm further out it is outside. -/
theorem test_worked_intrusion :
    let t := monitorArm .b ⟨3200000000, 2000000000, 1200000000⟩ guarded
    let u := monitorArm .b ⟨3199999990, 2000000000, 1200000000⟩ t
    (t.mgdOf .b).latches = 8 ∧ (t.mgdOf .b).causes = causeOnly .intrusion
      ∧ (sourceOf t 1).detail = some (.zones 8) ∧ (u.mgdOf .b).latches = 0
      ∧ (u.mgdOf .b).causes = causeOnly .intrusion := by decide +kernel

/-- 5.10: the release without the recover flag is REFUSED, with it the cause moves to the creep set. -/
theorem test_worked_release :
    let s := guarded.onMgd .b (fun g => { g with latches := 8, causes := causeOnly .intrusion })
    reply (.holdRelease 1 0) s = (some .refused, [8, 0]) ∧ reply (.holdRelease 1 1) s = (some .done, [0, 8]) := by decide +kernel

/-- 5.10: the claims of its last table. -/
theorem test_worked_claims :
    let s := withZone 2 (.held .b false true) (withZone 1 (.held .a false false) inRun)
    (reply (.zoneClaim 1 1) s).1 = some .deadlock ∧ (reply (.zoneClaim 0 4) s).1 = some .done
      ∧ (reply (.zoneClaim 0 6) (withZone 6 (.held .b false false) s)).1 = some .busy
      ∧ zoneOf (after (.zoneRelease 1 2) s) 2 = .held .b true true := by decide +kernel

/-- 6.6: the mistyped step timeout fails the content rules at offset 6, or the sum when the sum meant the right word. -/
theorem test_worked_check :
    let bank : Bank := [(0, 64), (1, 1000), (2, 8), (4, 2), (5, 4), (7, 500), (8, 500)]
    let s (e : Word) := inConfig.onTbs .stationRecord (fun t => { t with staging := bank, state := .checking e 0 false })
    ((after (.tableCheckComplete .stationRecord) (s 10622)).tbsOf .stationRecord).lastResult = some (.failedContent 6)
      ∧ ((after (.tableCheckComplete .stationRecord) (s 13422)).tbsOf .stationRecord).lastResult = some (.failedSum 10622) := by
  decide +kernel

/-- 6.6: the first activation leaves the staging bank EMPTY; the next one reverts. -/
theorem test_worked_activation :
    let s := inConfig.onTbs .stationRecord (fun t => { t with staging := record66, state := .passed })
    let t := after (.tableActivate 6) s
    t.tbsOf .stationRecord = ⟨[], .empty, some record66, 1, none⟩ ∧ reply (.tableActivate 6) s = (some .done, [1]) := by decide +kernel

/-- 9.5, frame n: LIMIT_B is selected, and the pending set after it shows 8, 10 and 15. -/
theorem test_worked_selection :
    let s := post .table (.check .zoneTable .passed) (post .pointLost (.pointLost .a 17 .queueFull)
      (post (.zone .a) (.granted 2) (post (.limit .b) (.limits 8) { State.reset with evu := { Evu.reset with reportLevel := 2 } })))
    selectedSource s = some 3 ∧ (selectEvent s).1.take 12 = [3, 0, 0, 0, 0, 0x85, 0, 0, 8, 0, 0, 0]
      ∧ (sourceOf (selectEvent s).2 3).detail = none := by decide +kernel

/-- 4.8: the change begins at once with zone 0 free; its drop goes on to the pick. -/
theorem test_worked_change_begin :
    let t := after (.changeBegin 0 4 2) inRun
    sessionOf t .a = ⟨.drop, some 1, some 4, some 2, some 3, some 400, none⟩ ∧ zoneOf t 0 = .held .a false false
      ∧ triggerOf t .a = .suppressed := by decide +kernel

/-- 4.8: a drop that is complete places the tip and reloads the timer for the pick. -/
theorem test_worked_drop :
    let s := (withZone 0 (.held .a false false) (inSession .a ⟨.drop, some 1, some 4, some 2, some 3, some 269, none⟩ inRun)).onPcc .a
      (fun p => { p with changeDue := true })
    let t := after (.dropComplete .a) s
    (tipOf t 1).location = .port 4 ∧ portOf t 4 = .holds 1 ∧ (sessionOf t .a).state = .pick ∧ (sessionOf t .a).timer = some 400 := by decide +kernel

/-- 4.8 and 11.5: the expected code matches; another present tip's code is a mismatch with that tip identified. -/
theorem test_worked_pick :
    (let t := after (.pickComplete .a false) (picking 1102);
      (tipOf t 2).location = .onArm .a ∧ portOf t 3 = .empty ∧ sessionOf t .a = Session.idle ∧ zoneOf t 0 = .held .a true false)
    ∧ (let t := after (.pickComplete .a false) (picking 1103);
      (tipOf t 2).location = .unknown ∧ (tipOf t 3).location = .onArm .a ∧ portOf t 5 = .unverified
        ∧ (sourceOf t 6).detail = some (.fault .identity (some 2) (some 3) 1103)) := by decide +kernel

/-- 11.1: the identity record of the first link check, and the address taken. -/
theorem test_worked_link_check :
    let f : RingFrame := { frame [] with header := 0x0102 }
    let t := after (.linkCheckFrame 0 .p1 f) State.reset
    t.riu.address = some 1 ∧ t.riu.station = .config
      ∧ (t.riu.sent2.map (fun o => (bytesAt o.frame.payload 0 12, headerByte o.frame 1, headerByte o.frame 2)))
        = some ([0x31, 0x0E, 0x2E, 0x0A, 1, 1, 1, 2, 24, 12, 8, 32], 2, 1) := by decide +kernel

/-- 2.8, 11.4: an expiry with the bracket OPEN defers the advance, and the close takes it. -/
theorem test_worked_expiry :
    let s := (inRun.onTcu .a (fun u => { u with bracketOpen := true })).onThu .a (fun t => { t with countdown := some 0 })
    let t := after (.autoAdvanceExpiry .a) s
    (t.thuOf .a).deferred = true ∧ (t.thuOf .a).countdown = none ∧ (t.thuOf .a).applied.epoch = 0
      ∧ ((after (.featureClose 0) t).thuOf .a).applied.epoch = 1
      ∧ ((after (.featureClose 0) t).thuOf .a).countdown = some 500 := by decide +kernel

/-- R149, R150: at the limit of 8 missing frames ring loss begins. -/
theorem test_ring_loss :
    let s := { inRun with riu := { inRun.riu with missed := 7 } }
    let t := after (.missedFrameDeadline false) s
    t.riu.missed = 8 ∧ t.riu.ringLoss = true ∧ t.riu.clock = 1500000 ∧ t.riu.deadline = some 2500000 := by decide +kernel

/-- R15: the return pass of the frame that carried a TIP_SET of the mounted tip uses the former offset. -/
theorem test_former_offset :
    let s := { inRun with riu := { inRun.riu with inFlight := some ⟨1, 1000000, 64, ⟨none, none⟩⟩ } }
    let t := takeRequest ⟨7, 0x20, 1, 1, 0, 0, 0, ⟨5, 6, 7, 1, 0, 20000 * 65536 + 1101⟩⟩ s
    (tipOf t 1).offset = ⟨5, 6, 7⟩ ∧ mountedOffset t .a = ⟨0, 0, 0⟩
      ∧ mountedOffset { t with riu := { t.riu with inFlight := none } } .a = ⟨5, 6, 7⟩ := by decide +kernel

/-- R154: a request that waits for its frame's return pass is taken before an edge. -/
theorem test_request_before_edge :
    let s := inRun.onTcu .a (fun u => { u with trigger := .armed, bracketOpen := true })
    let t := after (.triggerEdge 10 .a true) { s with rqu := { s.rqu with awaiting := some ⟨7, 0x33, 1, 0, 0, 0, 0, ⟨0, 0, 0, 0, 0, 0⟩⟩ } }
    t.rqu.exchange.result = some .done ∧ (t.tcuOf .a).bracketOpen = false ∧ armLatched t .a = true ∧ t.rqu.awaiting = none := by
  decide +kernel

/-- A cycle frame whose request slot, in the window at byte 64, names address 7 and a code with a first parameter. -/
def asking (address code : Byte) (param : Byte) : RingFrame :=
  frame ((if address = 0 then [] else [(64, address)]) ++ (if code = 0 then [] else [(65, code)])
    ++ (if param = 0 then [] else [(72, param)]))

/-- R84, R90: a step timer at 0 has timed out before ring loss begins at a deadline that an edge finds passed. -/
theorem test_timeout_before_ring_loss :
    let s := onSession .a (fun c => { c with timer := some 0 })
      ((picking 1102).onPcc .a (fun p => { p with changeDue := false }))
    let t := after (.triggerEdge 1500001 .a true) { s with riu := { s.riu with missed := 7 } }
    t.riu.ringLoss = true ∧ (sessionOf t .a).fault = some .timeout := by decide +kernel

/-- R154, R170: the selection waits for a PORT_SET of its own frame, and does not wait for a TIP_SET. -/
theorem test_selection_waits :
    let waits (code : Byte) : State :=
      { inRun with rqu := { inRun.rqu with awaiting := some (readRequest (asking 7 code 0).payload 64) } }
    maySelect (waits 0x22) = false ∧ maySelect (waits 0x20) = true := by decide +kernel

/-! ## States that meet the hypotheses of the statements, clause by clause -/

set_option synthInstance.maxSize 4000

/-- Whether the clock can run on for a time without leaving the deadline behind. -/
def aheadB (e : Nat) (s : State) : Bool :=
  match s.riu.deadline with
  | none => true
  | some d => decide (e ≤ timeUntil s.riu.clock d)

theorem deadlineAhead_iff {e : Nat} {s : State} : DeadlineAhead e s ↔ aheadB e s = true := by
  cases h : s.riu.deadline <;> simp [DeadlineAhead, aheadB, h]

/-- A block at work: arm A in PICK, arm B waiting for zone 0 to pick tip 3, a request in the queue. -/
def busy : State :=
  { withZone 0 (.held .a false true) (inSession .b ⟨.waitZone, none, none, some 3, some 5, none, none⟩ (picking 1102)) with
    pending := [.changeAbort 1] }

theorem witness_invariants_meet : NumbersBounded busy ∧ RecordsKept busy ∧ SuppressedWithSession busy ∧ RestsOutsideRun busy
    ∧ SessionFieldsFit busy ∧ BanksCanonical busy ∧ BanksSound busy ∧ HoldsStand busy := by
  simp only [NumbersBounded, RecordsKept, SuppressedWithSession, RestsOutsideRun, SessionFieldsFit, BanksCanonical, BanksSound, HoldsStand,
    forall_arm, forall_kind]
  repeat' refine And.intro ?_ ?_
  all_goals decide +kernel

theorem witness_tables_meet : ZonesOrderly busy ∧ TipsInPlace busy ∧ TemperaturesInRange busy := by
  simp only [ZonesOrderly, TipsInPlace, SessionReady, SessionsApart, TemperaturesInRange, forall_arm]
  repeat' refine And.intro ?_ ?_
  all_goals decide +kernel

/-- The invariants' hypotheses together, with a step that changes the state. -/
theorem witness_StepKeeps : Orderly busy ∧ ∃ t, step busy = .next t ∧ sessionOf t .b ≠ sessionOf busy .b :=
  ⟨⟨witness_invariants_meet.1, witness_invariants_meet.2.1, witness_invariants_meet.2.2.1, witness_invariants_meet.2.2.2.1,
    witness_invariants_meet.2.2.2.2.1, witness_invariants_meet.2.2.2.2.2.1, witness_invariants_meet.2.2.2.2.2.2.1,
    witness_invariants_meet.2.2.2.2.2.2.2, witness_tables_meet.1, witness_tables_meet.2.1, witness_tables_meet.2.2⟩, _, rfl, by decide +kernel⟩

theorem witness_StepTakesFront : NothingDue inRun ∧ inRun.pending = [] := by
  simp only [NothingDue, ArmQuiet, forall_arm, forall_kind]
  repeat' refine And.intro ?_ ?_
  all_goals decide +kernel

theorem witness_StationModeTransitions :
    (InService inRun ∧ inRun.riu.station = .run ∧ (∀ x, armLatched inRun x = false ∧ inStep (sessionOf inRun x) = false))
      ∧ (InService inConfig ∧ inConfig.riu.station = .config ∧ activeBank .slotMap inConfig = none)
      ∧ (let s := { inConfig with tbs := inRun.tbs };
        s.riu.station = .config ∧ activeBank .slotMap s ≠ none ∧ activeBank .stationRecord s ≠ none)
      ∧ ((3 : Word).toNat % 256 ≠ 1 ∧ (3 : Word).toNat % 256 ≠ 2 ∧ (257 : Word).toNat % 256 = 1 ∧ (258 : Word).toNat % 256 = 2)
      ∧ (let s := withZone 0 (.held .a false true) (inSession .b ⟨.waitZone, none, none, some 3, some 5, none, none⟩ inRun);
        s.riu.station = .run ∧ ∀ x, armLatched s x = false ∧ inStep (sessionOf s x) = false)
      ∧ ((withTrigger (.latched latch38) inRun).riu.station = .run ∧ armLatched (withTrigger (.latched latch38) inRun) .a = true)
      ∧ inStep (sessionOf (picking 1) .a) = true := by
  simp only [forall_arm]
  repeat' refine And.intro ?_ ?_
  all_goals decide +kernel

theorem witness_StationResetIsWarmReset :
    InService (picking 1) ∧ NumbersBounded (picking 1) ∧ isTip 2 ∧ inStep (sessionOf (picking 1) (otherArm .a)) = false
      ∧ (sessionOf (picking 1) .a).state = .pick ∧ (sessionOf (picking 1) .a).pickTip = some 2
      ∧ (sessionOf (picking 1) .a).pickPort = some 3
      ∧ (∀ x, inStep (sessionOf inRun x) = false) := by
  simp only [NumbersBounded, forall_arm]
  repeat' refine And.intro ?_ ?_
  all_goals decide +kernel

theorem witness_StatusReadShowsState :
    InService inRun ∧ NumbersBounded inRun ∧ RecordsKept inRun ∧ (16 : Byte).toNat ≤ 16 ∧ (5 : Byte).toNat < 6
      ∧ isTip (1 : Byte).toNat ∧ isTip (32 : Byte).toNat ∧ (31 : Byte) ≠ 32
      ∧ (inRun.thu.channels[4 * (5 : Byte).toNat + 3]?).isSome = true ∧ (inRun.thu.aggregates[7]?).isSome = true := by
  simp only [NumbersBounded, RecordsKept, forall_arm]
  repeat' refine And.intro ?_ ?_
  all_goals decide +kernel

theorem witness_TableWriteWritesWords :
    InService inConfig ∧ kindOf 0 = none ∧ kindOf 7 = none ∧ kindOf 6 = some .stationRecord
      ∧ ¬ (1 ≤ (0 : Byte).toNat) ∧ ¬ ((7 : Byte).toNat ≤ 6) ∧ ¬ ((15 : BitVec 16).toNat + (2 : Byte).toNat ≤ capacity .stationRecord)
      ∧ (10 : BitVec 16).toNat + (6 : Byte).toNat ≤ capacity .stationRecord
      ∧ isChecking ((inConfig.onTbs .stationRecord (fun t => { t with state := .checking 0 1 false })).tbsOf .stationRecord).state = true
      ∧ isChecking (inConfig.tbsOf .stationRecord).state = false ∧ Memory.wf (inConfig.tbsOf .stationRecord).staging = true := by
  decide

theorem witness_TableClearAndCheck :
    InService inConfig ∧ (inConfig.tbsOf .slotMap).state = .empty ∧ isChecking (inConfig.tbsOf .slotMap).state = false
      ∧ BanksCanonical inConfig
      ∧ (let s := inConfig.onTbs .slotMap (fun t => { t with state := .unchecked });
        (s.tbsOf .slotMap).state ≠ .empty ∧ isChecking (s.tbsOf .slotMap).state = false) := by
  simp only [BanksCanonical, forall_arm, forall_kind]
  repeat' refine And.intro ?_ ?_
  all_goals decide +kernel

/-- The block in RUN with a kind's staging bank PASSED. -/
def passedIn (k : TableKind) (b : Bank) (s : State) : State := s.onTbs k (fun t => { t with staging := b, state := .passed })

theorem witness_TableActivateRefusals :
    InService inRun ∧ (inRun.tbsOf .slotMap).state ≠ .passed
      ∧ (let s := passedIn .slotMap slots111 inRun; (s.tbsOf .slotMap).state = .passed ∧ s.riu.station = .run)
      ∧ (let s := passedIn (.armMap .a) map1 (inRun.onTcu .a (fun u => { u with bracketOpen := true }));
        (s.tbsOf (.armMap .a)).state = .passed ∧ (s.tcuOf .a).bracketOpen = true)
      ∧ (let s := passedIn .zoneTable zones510 (withZone 7 (.held .b true true) inRun);
        (s.tbsOf .zoneTable).state = .passed ∧ ∃ z < 8, zoneOf s z ≠ .free)
      ∧ (let s := passedIn .stationRecord [(0, 200), (1, 1000)] { inConfig with tbs := inRun.tbs };
        crossMet .stationRecord s 0 ∧ (s.tbsOf .stationRecord).state = .passed ∧ s.riu.station = .config)
      ∧ (let s := passedIn .slotMap [(0, 1), (2, 316), (3, 4), (5, 1000)] { inConfig with tbs := inRun.tbs };
        crossMet .slotMap s 2 ∧ (s.tbsOf .slotMap).state = .passed ∧ s.riu.station = .config) :=
  ⟨by decide, by decide, by decide, by decide, by decide +kernel,
    ⟨⟨rfl, slots111, rfl, 0, by decide +kernel⟩, by decide, by decide⟩,
    ⟨⟨record66, rfl, 0, rfl, by decide +kernel, by decide⟩, by decide, by decide⟩⟩

theorem witness_TableActivateSwapsBanks :
    (let s := passedIn .stationRecord record66 { inConfig with tbs := inRun.tbs };
      InService s ∧ (s.tbsOf .stationRecord).state = .passed ∧ s.riu.station = .config ∧ (∀ o, ¬ crossMet .stationRecord s o)
        ∧ s.riu.deadline = none)
    ∧ (let s := passedIn (.armMap .a) map1 inRun;
      InService s ∧ (s.tbsOf (.armMap .a)).state = .passed ∧ (∀ o, ¬ crossMet (.armMap .a) s o)
        ∧ (s.tcuOf .a).bracketOpen = false ∧ armLatched s .a = false ∧ (sessionOf s .a).state = .idle)
    ∧ (let s := passedIn .zoneTable zones510 inRun;
      (s.tbsOf .zoneTable).state = .passed ∧ (∀ o, ¬ crossMet .zoneTable s o) ∧ ∀ z < 8, zoneOf s z = .free) := by
  have apart : ∀ e < 16, ¬ meetsWindowAt slots111 e 64 := by decide +kernel
  refine ⟨⟨by decide, by decide, by decide, ?_, by decide⟩, ⟨by decide, by decide, fun _ h => h, by decide, by decide, by decide⟩,
    ⟨by decide, fun _ h => h, by decide +kernel⟩⟩
  rintro o ⟨-, m, hm, e, h⟩
  cases hm
  exact apart e h.1.1 h

theorem witness_TableReadReturnsSixWords :
    InService inRun ∧ capacity .slotMap ≤ (48 : BitVec 16).toNat ∧ (47 : BitVec 16).toNat < capacity .slotMap ∧ 1 < (2 : Byte).toNat
      ∧ (inRun.tbsOf .slotMap).active = some slots111 ∧ (inRun.tbsOf .channelTable).active = none := by decide

theorem witness_TipSetWritesTheRecord :
    InService inRun ∧ NumbersBounded inRun ∧ ¬ isTip 0 ∧ ¬ isTip 33 ∧ isTip 32
      ∧ (let f : ParamWords := ⟨0, 0, 0, 10000000, 1000000, 10000 * 65536 + 1105⟩;
        f.w3.toNat ≤ 10000000 ∧ f.w4.toNat ≤ 1000000 ∧ 10000 ≤ (f.w5.extractLsb' 16 16).toNat
          ∧ (f.w5.extractLsb' 16 16).toNat ≤ 50000 ∧ ∀ u < 33, ¬ (isTip u ∧ u ≠ 1 ∧ (tipOf inRun u).code = f.w5.extractLsb' 0 16))
      ∧ ((tipOf inRun 2).present = true ∧ (tipOf inRun 2).code = 1102)
      ∧ (mountedTip (withTrigger (.latched latch38) inRun) .a = some 1
        ∧ armLatched (withTrigger (.latched latch38) inRun) .a = true)
      ∧ mountedTip (withTrigger (.latched latch38) inRun) .b = none := by
  simp only [NumbersBounded, forall_arm]
  repeat' refine And.intro ?_ ?_
  all_goals decide +kernel

theorem witness_TipRemoveTakesTheTipOut :
    InService inRun ∧ ¬ isTip (33 : Byte).toNat ∧ (tipOf inRun 2).location = .port 3 ∧ (tipOf inRun 1).location = .onArm .a
      ∧ (tipOf inRun 32).location = .absent := by decide

theorem witness_PortSetSetsThePort :
    InService inRun ∧ NumbersBounded inRun ∧ TipsInPlace inRun ∧ ¬ ((12 : Byte).toNat < 12) ∧ (3 : Word).toNat % 256 ≠ 2
      ∧ (258 : Word).toNat % 256 = 2 ∧ (256 : Word).toNat % 256 = 0 ∧ (1 : Word).toNat % 256 = 1
      ∧ ((4 : Byte).toNat < 12 ∧ isTip (4 : Word).toNat ∧ (tipOf inRun 4).present = true ∧ (tipOf inRun 4).location = .absent)
      ∧ (∀ x, (sessionOf inRun x).state = .idle) ∧ (sessionOf (picking 1) .a).state ≠ .idle
      ∧ ((tipOf inRun 1).present = true ∧ (tipOf inRun 1).location = .onArm .a) ∧ portOf inRun 3 = .holds 2 := by
  simp only [NumbersBounded, TipsInPlace, SessionReady, SessionsApart, forall_arm]
  repeat' refine And.intro ?_ ?_
  all_goals decide +kernel

theorem witness_ArmTipSetMountsTheTip :
    InService inRun ∧ NumbersBounded inRun ∧ (tipOf inRun 5).present = false ∧ ¬ isTip 33
      ∧ ((sessionOf inRun .a).state = .idle ∧ triggerOf inRun .a = .disarmed) ∧ triggerOf measuring .a = .armed
      ∧ (tipOf inRun 2).location = .port 3 ∧ ((tipOf inRun 4).present = true ∧ (tipOf inRun 4).location = .absent) := by
  simp only [NumbersBounded, forall_arm]
  repeat' refine And.intro ?_ ?_
  all_goals decide +kernel

theorem witness_TriggerRequestsByState :
    InService inRun ∧ inRun.riu.station = .run ∧ activeBank (.armMap .b) inRun = none ∧ mountedTip inRun .b = none
      ∧ activeBank (.armMap .a) inRun ≠ none ∧ mountedTip inRun .a ≠ none ∧ (sessionOf inRun .a).state = .idle
      ∧ triggerOf inRun .a ≠ .suppressed ∧ armLatched inRun .a = false
      ∧ (let s := inSession .a ⟨.fault, none, none, none, none, none, some .timeout⟩ inRun;
        activeBank (.armMap .a) s ≠ none ∧ mountedTip s .a ≠ none ∧ (sessionOf s .a).state ≠ .idle ∧ triggerOf s .a = .suppressed)
      ∧ triggerOf (withTrigger (.latched latch38) inRun) .a = .latched latch38 := by decide +kernel

/-- Arm A's bracket OPEN in RUN, an advance owed or not. -/
def opened (owed : Bool) : State :=
  (inRun.onTcu .a (fun u => { u with bracketOpen := true, feature := 255 })).onThu .a (fun t => { t with deferred := owed })

theorem witness_FeatureRequests :
    InService inRun ∧ inRun.riu.station = .run ∧ (inRun.tcuOf .a).bracketOpen = false ∧ (sessionOf inRun .a).state = .idle
      ∧ ((opened true).tcuOf .a).bracketOpen = true ∧ armLatched (opened true) .a = false ∧ ((opened true).thuOf .a).deferred = true
      ∧ ((opened false).thuOf .a).deferred = false
      ∧ ((withTrigger (.latched latch38) (opened true)).tcuOf .a).bracketOpen = true
      ∧ armLatched (withTrigger (.latched latch38) (opened true)) .a = true := by decide

theorem witness_WorkpieceRequests :
    InService inRun ∧ 30000 < (30001 : Word).toNat ∧ (30000 : Word).toNat ≤ 30000 ∧ (∃ x, ((opened true).tcuOf x).bracketOpen = true)
      ∧ ¬ ∃ x, (inRun.tcuOf x).bracketOpen = true := by
  simp only [exists_arm]; decide

theorem witness_ThermalAdvances :
    InRun inRun ∧ InRun (opened true) ∧ ((opened true).tcuOf .a).bracketOpen = true ∧ (inRun.tcuOf .a).bracketOpen = false
      ∧ ((inRun.onThu .a (fun t => { t with countdown := some 0 })).thuOf .a).countdown = some 0
      ∧ (((opened true).onThu .a (fun t => { t with countdown := some 0 })).thuOf .a).countdown = some 0
      ∧ (inRun.thuOf .a).countdown ≠ some 0 := by decide

theorem witness_ZoneClaimByTable :
    InRun inRun ∧ 8 ≤ (8 : Byte).toNat ∧ (7 : Byte).toNat < 8 ∧ zoneOf inRun 7 = .free
      ∧ zoneOf (withZone 7 (.held .a true true) inRun) 7 = .held .a true true
      ∧ zoneOf (withZone 0 (.held .b true true) inRun) 0 = .held .b true true
      ∧ (let s := withZone 0 (.held .b false false) (withZone 6 (.held .b false true) inRun);
        zoneOf s 0 = .held .b false false ∧ ∃ v < 8, waitsOn s .a v = true)
      ∧ (let s := withZone 7 (.held .b false false) (withZone 6 (.held .a false true) inRun);
        zoneOf s 7 = .held .b false false ∧ (∀ v < 8, waitsOn s .a v = false) ∧ ∃ v < 8, waitsOn s .b v = true)
      ∧ (let s := withZone 7 (.held .b false false) inRun;
        zoneOf s 7 = .held .b false false ∧ (∀ v < 8, waitsOn s .a v = false) ∧ ∀ v < 8, waitsOn s .b v = false) := by
  decide +kernel

/-- Arm A's inside record of every zone set. -/
def insideAt (v : Inside) (s : State) : State := s.onMgd .a (fun g => { g with inside := List.replicate 8 v })

theorem witness_ZoneReleaseByTable :
    InService inRun ∧ 8 ≤ (8 : Byte).toNat ∧ (sessionOf (picking 1) .a).state ≠ .idle ∧ zoneOf inRun 7 = .free
      ∧ (sessionOf inRun .a).state = .idle
      ∧ zoneOf (withZone 7 (.held .b true false) inRun) 7 = .held .b true false
      ∧ zoneOf (withZone 7 (.held .b true true) inRun) 7 = .held .b true true
      ∧ zoneOf (withZone 7 (.held .a true true) inRun) 7 = .held .a true true
      ∧ insideOf (withZone 7 (.held .a false true) inRun) .a 7 ≠ .outside
      ∧ insideOf (insideAt .outside (withZone 7 (.held .a false false) inRun)) .a 7 = .outside
      ∧ (let s := insideAt .outside (withZone 0 (.held .a false true)
          (inSession .b ⟨.waitZone, none, none, some 3, some 5, none, none⟩ inRun));
        zoneOf s 0 = .held .a false true ∧ insideOf s .a 0 = .outside ∧ (sessionOf s .a).state = .idle
          ∧ (sessionOf s .b).state = .waitZone) := by decide +kernel

theorem witness_HoldReleaseRemovesCauses :
    InService inRun ∧ 1 < (2 : Word).toNat % 256 ∧ (256 : Word).toNat % 256 ≤ 1 ∧ (1 : Word).toNat % 256 ≤ 1 := by decide

/-- What CHANGE_BEGIN needs of arm A in `inRun`, with its drop port and pick tip. -/
theorem witness_ChangeBeginStartsTheSession :
    InRun inRun ∧ (511 : Word).toNat % 256 = 255 ∧ (256 : Word).toNat % 256 = 0 ∧ ¬ isPort 12 ∧ isPort 4 ∧ isTip 2 ∧ (sessionOf inRun .a).state = .idle ∧ (inRun.tcuOf .a).bracketOpen = false
      ∧ armLatched inRun .a = false ∧ mountedTip inRun .a = some 1 ∧ portOf inRun 4 = .empty ∧ (tipOf inRun 2).present = true
      ∧ (tipOf inRun 2).location = .port 3 ∧ portOf inRun 3 = .holds 2 ∧ (sessionOf inRun .b).state = .idle
      ∧ zoneOf inRun 0 = .free ∧ zoneOf (withZone 0 (.held .a true true) inRun) 0 = .held .a true true
      ∧ zoneOf (withZone 0 (.held .b true false) inRun) 0 = .held .b true false
      ∧ ((opened true).tcuOf .a).bracketOpen = true
      ∧ ((sessionOf (picking 1) .a).state ≠ .idle ∧ (sessionOf (picking 1) .a).pickTip = some 2)
      ∧ (mountedTip inRun .b = none ∧ ∀ v < 8, waitsOn inRun .b v = false)
      ∧ (let s := withZone 0 (.held .b false false) (withZone 6 (.held .b false true) inRun); ∃ v < 8, waitsOn s .a v = true)
      ∧ (let s := withZone 0 (.held .b false false) (withZone 6 (.held .a false true) inRun);
        (∀ v < 8, waitsOn s .a v = false) ∧ ∃ v < 8, waitsOn s .b v = true) := by decide +kernel

theorem witness_ChangeAbortEndsTheSession :
    InService inRun ∧ (sessionOf inRun .a).state = .idle
      ∧ ((sessionOf busy .b).state = .waitZone ∧ zoneOf busy 0 = .held (otherArm .b) false true)
      ∧ ((sessionOf busy .a).state = .pick ∧ zoneOf busy 0 = .held .a false true) := by decide +kernel

theorem witness_EventRequests :
    InService inRun ∧ NumbersBounded inRun ∧ 16 < (17 : Byte).toNat ∧ (16 : Byte).toNat ≤ 16 ∧ 7 < (8 : Word).toNat % 256
      ∧ (263 : Word).toNat % 256 ≤ 7 := by
  simp only [NumbersBounded, forall_arm]
  repeat' refine And.intro ?_ ?_
  all_goals decide +kernel

theorem witness_RequestsTurnedAway :
    (isRequest .stationReset = true ∧ State.reset.riu.station = .unaddressed)
      ∧ (inConfig.riu.inReset = false ∧ inConfig.riu.station = .config) ∧ InRun inRun ∧ InService inConfig
      ∧ 1 < (2 : Byte).toNat ∧ 6 < (7 : Byte).toNat := by decide

/-- A point of arm A. -/
def point38 : Point := ⟨.a, 41, some ⟨7, 2⟩, 5, 12, 1, 1180000, ⟨299875410, -1, 139995853⟩, 256⟩

theorem witness_PointDrainEmptiesTheHead :
    inRun.tcu.drainDue = none
      ∧ (let s := { inRun with tcu := { inRun.tcu with queue := [point38, point38, point38], drainDue := some 64 } };
        s.tcu.drainDue = some 64 ∧ s.riu.sent1 = none)
      ∧ (let s := { inRun with
            riu := { inRun.riu with sent1 := some ⟨frame [(240, 1), (1471, 2)], true⟩ },
            tcu := { inRun.tcu with queue := [point38, point38, point38], drainDue := some 64 } };
        s.riu.sent1 = some ⟨frame [(240, 1), (1471, 2)], true⟩ ∧ Memory.wf (frame [(240, 1), (1471, 2)]).payload = true
          ∧ 1 < stationField (·.pointSlots) s ∧ s.tcu.queue[1]? = some point38) := by decide

/-- The touch of 3.8 about to be resolved, with a contact time. -/
def resolving (contact : Int) : State :=
  measuring.onTcu .a (fun u => { u with trigger := .latched { latch38 with contact := contact }, touchDue := .resolve })

theorem witness_TouchResolveBuildsThePoint :
    (measuring.tcuOf .a).touchDue ≠ .resolve
      ∧ (∃ oldest a newer b, ((resolving 1000000).cenOf .a).history = (oldest ++ a :: newer) ++ [b]
        ∧ (a.capture.toNat : Int) ≤ 1000000 ∧ ∀ e ∈ newer, ¬ (e.capture.toNat : Int) ≤ 1000000)
      ∧ (∃ older b, ((resolving 180000).cenOf .a).history = older ++ [b] ∧ ∀ e ∈ older, ¬ (e.capture.toNat : Int) ≤ 180000)
      ∧ ((resolving 1000000).tcuOf .a).touchDue = .resolve :=
  ⟨by decide, ⟨[_, _], _, [], _, rfl, by decide, by decide⟩, ⟨[_, _, _], _, rfl, by decide⟩, by decide⟩

theorem witness_LateResolutionResolvesOrLoses :
    (measuring.tcuOf .a).touchDue ≠ .late
      ∧ (let s := measuring.onTcu .a (fun u => { u with trigger := .latched latch38, touchDue := .late });
        triggerOf s .a = .latched latch38 ∧ (s.tcuOf .a).touchDue = .late ∧ (s.cenOf .a).history.getLast?.isSome = true
          ∧ armBank .a s = some map111)
      ∧ (let s := inRun.onTcu .a (fun u => { u with trigger := .latched latch38, touchDue := .late });
        triggerOf s .a = .latched latch38 ∧ (s.tcuOf .a).touchDue = .late ∧ armBank .a s = some map1
          ∧ (s.cenOf .a).history = []) := by decide +kernel

/-- What a pass makes of a latch, at the contact time and one short of it (and so without a new entry), and at the latch
limit of 4 passes and one short of it; and of an arm that is not LATCHED. -/
theorem witness_LateResolutionResolvesOrLoses_pass :
    (let s := withTrigger (.latched latch38) inRun;
      triggerOf s .a = .latched latch38 ∧ latch38.contact ≤ ((1150000 : BitVec 64).toNat : Int)
        ∧ ((1149999 : BitVec 64).toNat : Int) < latch38.contact ∧ ¬ stationField (·.latchLimit) s ≤ latch38.age + 1)
      ∧ (let s := withTrigger (.latched { latch38 with age := 3 }) inRun;
        triggerOf s .a = .latched { latch38 with age := 3 } ∧ stationField (·.latchLimit) s ≤ 3 + 1)
      ∧ ¬ stationField (·.latchLimit) (withTrigger (.latched { latch38 with age := 2 }) inRun) ≤ 2 + 1
      ∧ armLatched inRun .a = false := by decide +kernel

theorem test_pass_at_contact_time :
    ((resolutionStep .a (some 1150000) (withTrigger (.latched latch38) inRun)).tcuOf .a).touchDue = .resolve
      ∧ ((resolutionStep .a (some 1149999) (withTrigger (.latched { latch38 with age := 3 }) inRun)).tcuOf .a).touchDue = .late := by
  decide +kernel

theorem witness_CountdownsExpire :
    triggerOf (withTrigger (.rearm 0) inRun) .a = .rearm 0 ∧ triggerOf (withTrigger (.rearm 1) inRun) .a ≠ .rearm 0
      ∧ (let s := onSession .a (fun c => { c with timer := some 0 }) (picking 1);
        (sessionOf s .a).state = .pick ∧ (sessionOf s .a).timer = some 0)
      ∧ (sessionOf (picking 1) .a).timer ≠ some 0 := by decide

theorem witness_ChangeStepsComplete :
    (inRun.pccOf .a).changeDue = false
      ∧ (let s := (withZone 0 (.held .a false true)
          (inSession .a ⟨.drop, some 1, some 4, some 2, some 3, some 269, none⟩ inRun)).onPcc .a
            (fun p => { p with changeDue := true });
        NumbersBounded s ∧ TipsInPlace s ∧ (s.pccOf .a).changeDue = true ∧ (sessionOf s .a).state = .drop
          ∧ (s.tcuOf .a).touchDue ≠ .resolve ∧ (sessionOf s .a).dropTip = some 1 ∧ (sessionOf s .a).dropPort = some 4 ∧ isTip 1
          ∧ zoneOf s 0 = .held .a false true ∧ (sessionOf s .a).pickTip ≠ none)
      ∧ (let s := (withZone 0 (.held .a false false)
          (inSession .a ⟨.drop, some 1, some 4, none, none, some 1, none⟩ inRun)).onPcc .a (fun p => { p with changeDue := true });
        NumbersBounded s ∧ TipsInPlace s ∧ (s.pccOf .a).changeDue = true ∧ (sessionOf s .a).state = .drop
          ∧ (s.tcuOf .a).touchDue ≠ .resolve ∧ (sessionOf s .a).dropTip = some 1 ∧ (sessionOf s .a).dropPort = some 4
          ∧ zoneOf s 0 = .held .a false false ∧ (sessionOf s .a).pickTip = none) := by
  simp only [NumbersBounded, TipsInPlace, SessionReady, SessionsApart, forall_arm]
  repeat' refine And.intro ?_ ?_
  all_goals decide +kernel

/-- The slots of the heads and of the rack in `inRun`. -/
theorem slot_at_head : SlotAt inRun 3 0 428 := ⟨slots111, rfl, 5, by decide, by decide, by decide, by decide, by decide⟩
theorem slot_at_rack : SlotAt inRun 4 0 444 := ⟨slots111, rfl, 7, by decide, by decide, by decide, by decide, by decide⟩

theorem witness_ReadingsOfAPass :
    (SlotAt inRun 3 0 428 ∧ SlotAt inRun 4 0 444) ∧ marked [(428, 1)] 428 ∧ ¬ marked [] 428
      ∧ SlotUnread State.reset [] 3 0 ∧ SlotUnread State.reset [] 4 0
      ∧ ((sessionOf inRun .a).state = .idle ∧ mountedTip inRun .a = some 1 ∧ (tipOf inRun 1).code = 1101
        ∧ (inRun.pccOf .a).consistent = true)
      ∧ ((sessionOf (picking 1) .a).state = .pick ∧ (sessionOf (picking 1) .a).pickPort = some 3)
      ∧ (portOf inRun 3 = .holds 2 ∧ portOf inRun 4 = .empty ∧ portOf inRun 11 = .disabled) :=
  ⟨⟨slot_at_head, slot_at_rack⟩, by decide, by decide, (by rintro off ⟨m, hm, -⟩; cases hm), (by rintro off ⟨m, hm, -⟩; cases hm),
    by decide, by decide, by decide⟩

theorem witness_PickMatches :
    let s := picking 1102
    NumbersBounded s ∧ TipsInPlace s ∧ (s.pccOf .a).changeDue = true ∧ (sessionOf s .a).state = .pick
      ∧ (s.tcuOf .a).touchDue ≠ .resolve ∧ (sessionOf s .a).pickTip = some 2 ∧ (sessionOf s .a).pickPort = some 3
      ∧ zoneOf s 0 = .held .a false false ∧ (s.pccOf .a).codeLast = (tipOf s 2).code
      ∧ ∀ u < 33, isTip u → u ≠ 2 → (tipOf s u).present = true → (tipOf s u).code ≠ (s.pccOf .a).codeLast := by
  simp only [NumbersBounded, TipsInPlace, SessionReady, SessionsApart, forall_arm]
  repeat' refine And.intro ?_ ?_
  all_goals decide +kernel

/-- Arm A's pick reads the code of tip 1, which stands on arm B, whose session waits to drop it. -/
def stolen : State :=
  withZone 0 (.held .a false true) (inSession .b ⟨.waitZone, some 1, some 4, none, none, none, none⟩
    { picking 1101 with pcc := { (picking 1101).pcc with tips := (picking 1101).pcc.tips.set 0 (tipAt 1101 (.onArm .b)) } })

theorem witness_PickMismatch :
    (let s := picking 999;
      NumbersBounded s ∧ TipsInPlace s ∧ (s.pccOf .a).changeDue = true ∧ (sessionOf s .a).state = .pick
        ∧ (sessionOf s .a).pickTip = some 2 ∧ (sessionOf s .a).pickPort = some 3 ∧ (s.pccOf .a).codeLast ≠ (tipOf s 2).code
        ∧ (tipOf s 2).code ≠ 0 ∧ ∀ u < 33, ¬ (isTip u ∧ u ≠ 2 ∧ (tipOf s u).present = true ∧ (tipOf s u).code = 999))
    ∧ (SuppressedWithSession (picking 1103) ∧ (tipOf (picking 1103) 3).present = true ∧ (tipOf (picking 1103) 3).code = ((picking 1103).pccOf .a).codeLast
      ∧ (tipOf (picking 1103) 3).location = .port 5)
    ∧ (NumbersBounded stolen ∧ TipsInPlace stolen ∧ SuppressedWithSession stolen ∧ (stolen.pccOf .a).changeDue = true ∧ (sessionOf stolen .a).state = .pick
      ∧ (tipOf stolen 1).present = true ∧ (tipOf stolen 1).code = (stolen.pccOf .a).codeLast
      ∧ (tipOf stolen 1).location = .onArm .b ∧ (sessionOf stolen .b).state = .waitZone
      ∧ (sessionOf stolen .b).dropTip = some 1) := by
  simp only [NumbersBounded, TipsInPlace, SessionReady, SessionsApart, SuppressedWithSession, forall_arm]
  repeat' refine And.intro ?_ ?_
  all_goals decide +kernel

theorem witness_DeferredReleaseFreesOrGrants :
    releaseDue inRun 7 = false
      ∧ (let s := insideAt .outside (withZone 7 (.held .a true false) inRun);
        insideOf s .a 7 = .outside ∧ zoneOf s 7 = .held .a true false)
      ∧ (let s := insideAt .outside (withZone 0 (.held .a true true)
          (inSession .b ⟨.waitZone, none, none, some 3, some 5, none, none⟩ inRun));
        insideOf s .a 0 = .outside ∧ zoneOf s 0 = .held .a true true ∧ (sessionOf s .b).state = .waitZone)
      ∧ (let s := insideAt .outside (withZone 0 (.held .a true true) inRun);
        insideOf s .a 0 = .outside ∧ zoneOf s 0 = .held .a true true ∧ (sessionOf s .b).state ≠ .waitZone) := by decide +kernel

theorem witness_TableCheckCompletes :
    checkDue (inRun.tbsOf .stationRecord) = false
      ∧ (let s := inConfig.onTbs .stationRecord (fun t => { t with staging := record66, state := .checking 13422 0 false });
        (s.tbsOf .stationRecord).state = .checking 13422 0 false ∧ bankOk .stationRecord (s.tbsOf .stationRecord).staging = true
          ∧ (∀ o, ¬ brokenAt .stationRecord record66 s o))
      ∧ (let b : Bank := [(1, 1000)];
        bankOk .stationRecord b = true ∧ brokenAt .stationRecord b inConfig 5 ∧ ∀ p < 5, ¬ brokenAt .stationRecord b inConfig p) := by
  refine ⟨by decide, ⟨by decide, by decide +kernel, ?_⟩, by decide +kernel, ?_, ?_⟩
  · rintro o (⟨rfl, h | h | ⟨m, hm, -⟩⟩ | ⟨rfl, h⟩ | ⟨rfl, h⟩ | ⟨rfl, h⟩ | ⟨rfl, h⟩ | ⟨rfl, h⟩ | ⟨rfl, h⟩ | ⟨rfl, h⟩ | ⟨rfl, h⟩)
    · revert h; decide
    · revert h; decide
    · cases hm
    all_goals (revert h; decide)
  · exact .inr (.inr (.inr (.inr (.inr (.inl (by decide))))))
  · rintro p hp (⟨rfl, h | h | ⟨m, hm, -⟩⟩ | ⟨rfl, h⟩ | ⟨rfl, h⟩ | ⟨rfl, h⟩ | ⟨rfl, h⟩ | ⟨rfl, h⟩ | ⟨rfl, h⟩ | ⟨rfl, h⟩ | ⟨rfl, h⟩)
    · revert h; decide
    · revert h; decide
    · cases hm
    all_goals first | omega | (revert h; decide)

theorem witness_TriggerEdgeByState :
    Settled 1500000 inRun ∧ inRun.riu.station ≠ .unaddressed ∧ armBank .a inRun = some map1 ∧ armBank .b inRun = none
      ∧ Memory.read map1 37 = 0 ∧ triggerOf inRun .a = .disarmed
      ∧ Settled 0 (withTrigger .armed inRun) ∧ triggerOf (withTrigger .armed inRun) .a = .armed
      ∧ Settled 0 (withTrigger (.latched latch38) inRun) ∧ Settled 0 (withTrigger (.rearm 1) inRun)
      ∧ Settled 0 (withTrigger .suppressed inRun) := by
  simp only [Settled, NothingDue, ArmQuiet, deadlineAhead_iff, forall_arm, forall_kind]
  repeat' refine And.intro ?_ ?_
  all_goals decide +kernel

theorem witness_TableLookup :
    (tableCount map111 1 = 2 ∧ tableNode map111 1 0 = 0 ∧ tableNode map111 1 1 = 0)
      ∧ ¬ (tableCount map111 0 = 2 ∧ tableNode map111 0 0 = 0 ∧ tableNode map111 0 1 = 0)
      ∧ (-1 < tableStart map111 0) ∧ 2 ≤ tableCount map111 0
      ∧ tableStart map111 0 + (tableCount map111 0 - 1 : Nat) * tablePitch map111 0 = 6000000000
      ∧ (59 < tableCount map111 0 - 1 ∧ 99999999 < tablePitch map111 0) := by decide +kernel

theorem witness_CorrectionChainStages : armBank .a measuring = some map111 := by decide

theorem witness_ChannelUpdateByState :
    let r : ChannelRecord := ⟨some 6, 2, 0, 15000, 45000, 50, 2, 3⟩
    let c : Channel := ⟨.valid, some ⟨6656000, 26000, 5000000000⟩, 0, none, some 0⟩
    (c.counter = some 0 ∧ c.counter ≠ some 1) ∧ (r.low ≤ 15000 ∧ (45000 : Int) ≤ r.high)
      ∧ ¬ ((45001 : Int) ≤ r.high)
      ∧ roundDiv (|(26000 : Int) + 5 - 26000| * 10 ^ 9) 100000000 ≤ r.maxRate
      ∧ ¬ (roundDiv (|(26000 : Int) + 6 - 26000| * 10 ^ 9) 100000000 ≤ r.maxRate)
      ∧ (c.state = .valid ∧ (Channel.reset).state = .noData) ∧ 1 < r.holdLimit ∧ r.holdLimit ≤ 2 + 1 := by decide +kernel

/-- A CHANNEL TABLE whose channel 8 contributes to WORKPIECE, and a channel with a value. -/
def channels28 : Bank := [(64, 7), (65, 2), (67, 15000), (68, 45000), (69, 50), (70, 2), (71, 3)]
def valued (y : Int) : State :=
  { inRun with thu := { inRun.thu with channels := inRun.thu.channels.set 8 ⟨.valid, some ⟨y, 0, 0⟩, 0, none, some 0⟩ } }

/-- The filtered values of the channels that contribute to a role. -/
def valuesOf (table : Bank) (s : State) (a : Nat) : List Int :=
  ((List.range 24).filter (fun i => decide (wordNat table (8 * i) = a + 1)
      && (decide ((s.thu.channels.getD i Channel.reset).state = .valid)
        || decide ((s.thu.channels.getD i Channel.reset).state = .held)))).filterMap
    (fun i => (s.thu.channels.getD i Channel.reset).filter.map (fun f => (f.y + 128) / 256))

/-- The intake of channel 8 from TEMP_MODULE 2, and a pass with and without a CHANNEL TABLE. -/
theorem witness_ChannelIntake :
    inRun.thu.channels.length = 24 ∧ wordNat channels28 64 = 7 ∧ wordNat channels28 65 = 2 ∧ wordNat channels28 0 = 0
      ∧ SlotAt inRun 2 2 408 ∧ marked [(408, 1)] 408 ∧ (inRun.thu.channels[8]?).isSome = true
      ∧ SlotUnread inRun [] 2 2 ∧ activeBank .channelTable inRun = none
      ∧ activeBank .channelTable (inRun.onTbs .channelTable (fun t => { t with active := some channels28 })) = some channels28 :=
  ⟨by decide, by decide, by decide, by decide, ⟨slots111, rfl, 4, by decide, by decide, by decide, by decide, by decide⟩,
    by decide, by decide, (fun _ _ => by simp [marked, Memory.read]), by decide, by decide⟩

theorem witness_AggregationOfARole :
    inRun.thu.aggregates.length = 8 ∧ RecordsKept inRun ∧ valuesOf channels28 inRun 6 = []
      ∧ RecordsKept (valued (256 * 9999)) ∧ valuesOf channels28 (valued (256 * 9999)) 6 = [9999]
      ∧ valuesOf channels28 (valued (256 * 10000)) 6 = [10000] ∧ valuesOf channels28 (valued (256 * 50001)) 6 = [50001]
      ∧ (aggregateOf inRun 6).everFresh = false ∧ (aggregateOf inRun 6).temp.stale = true
      ∧ (let s := { inRun with thu := { inRun.thu with aggregates := inRun.thu.aggregates.set 7 ⟨⟨26010, false, false⟩, true⟩ } };
        s.thu.aggregates.length = 8 ∧ valuesOf channels28 s 7 = [] ∧ (aggregateOf s 7).everFresh = true
          ∧ (aggregateOf s 7).temp.stale = false) := by
  simp only [RecordsKept, forall_arm]
  repeat' refine And.intro ?_ ?_
  all_goals decide +kernel

theorem witness_GuardOnAPosition : armBank .b guarded = some map510 ∧ armBank .a guarded = some map1 := by decide +kernel

theorem witness_EventSelection :
    State.reset.evu.sources.length = 17 ∧ (∀ n < 17, (State.reset.evu.sources.getD n ⟨none, false, 0⟩).detail = none)
      ∧ (let s := post (.limit .b) (.limits 8) (post .ring .ringLost State.reset);
        s.evu.sources.length = 17 ∧ (s.evu.sources.getD 3 ⟨none, false, 0⟩).detail = some (.limits 8)
          ∧ s.evu.reportLevel < (s.evu.sources.getD 3 ⟨none, false, 0⟩).priority
          ∧ ∀ m < 17, (s.evu.sources.getD m ⟨none, false, 0⟩).detail ≠ none → m ≠ 3 →
            (s.evu.sources.getD m ⟨none, false, 0⟩).priority = (s.evu.sources.getD 3 ⟨none, false, 0⟩).priority ∧ 3 < m) := by
  decide +kernel

/-- Missing frames counted up to one below the ring-loss limit. -/
def atLimit (s : State) : State := { s with riu := { s.riu with missed := 7 } }

theorem witness_MissedFrameDeadlineCounts :
    State.reset.riu.deadline = none
      ∧ (inRun.riu.deadline = some 1500000 ∧ NothingDue inRun ∧ min 65535 (inRun.riu.missed + 1) < stationField (·.ringLimit) inRun)
      ∧ (let s := atLimit (withTrigger (.latched latch38) inRun);
        NothingDue s ∧ s.riu.ringLoss = false ∧ stationField (·.ringLimit) s ≤ min 65535 (s.riu.missed + 1)
          ∧ SessionFieldsFit s ∧ triggerOf s .a = .latched latch38 ∧ armBank .a s = some map1)
      ∧ (inStep (sessionOf (atLimit (picking 1)) .a) = true ∧ SessionFieldsFit (atLimit (picking 1))) := by
  simp only [NothingDue, ArmQuiet, SessionFieldsFit, forall_arm, forall_kind]
  repeat' refine And.intro ?_ ?_
  all_goals decide +kernel

theorem witness_MissingFramesAreForwarded :
    Settled 1500000 inRun ∧ isWrongLength { frame [] with length := 1471 } = true ∧ inRun.riu.p1Up = true ∧ inRun.riu.p2Up = true
      ∧ inRun.riu.deadline ≠ none ∧ inRun.riu.ringLoss = false
      ∧ min 65535 (inRun.riu.missed + 1) < stationField (·.ringLimit) inRun
      ∧ (Settled 0 (atLimit inRun) ∧ stationField (·.ringLimit) inRun ≤ min 65535 ((atLimit inRun).riu.missed + 1))
      ∧ (Settled 0 inConfig ∧ inConfig.riu.deadline = none) := by
  simp only [Settled, NothingDue, ArmQuiet, deadlineAhead_iff, forall_arm, forall_kind]
  repeat' refine And.intro ?_ ?_
  all_goals decide +kernel

/-- A link-check frame with an address counter and a record count. -/
def linkFrame (counter count : Byte) : RingFrame :=
  { frame [] with header := (2 : BitVec 96) ||| (counter.setWidth 96 <<< 8) ||| (count.setWidth 96 <<< 16) }

theorem witness_LinkCheckAnswered :
    (Settled 0 State.reset ∧ State.reset.riu.p1Up = true ∧ State.reset.riu.station = .unaddressed)
      ∧ (frameKind (linkFrame 254 91) = .linkCheck ∧ (linkFrame 254 91).length = 1472
        ∧ Memory.wf (linkFrame 254 91).payload = true ∧ headerByte (linkFrame 254 91) 1 = 254
        ∧ (headerByte (linkFrame 254 91) 2).toNat < 92)
      ∧ 92 ≤ (headerByte (linkFrame 1 92) 2).toNat ∧ headerByte (linkFrame 255 0) 1 = 255
      ∧ (frameKind { linkFrame 1 0 with length := 64 } = .linkCheck ∧ { linkFrame 1 0 with length := 64 }.length ≠ 1472)
      ∧ (Settled 0 inRun ∧ inRun.riu.station ≠ .unaddressed ∧ inRun.riu.p2Up = true) := by
  simp only [Settled, NothingDue, ArmQuiet, deadlineAhead_iff, forall_arm, forall_kind]
  repeat' refine And.intro ?_ ?_
  all_goals decide +kernel

theorem witness_FramesForwardedUnaltered :
    Settled 0 inRun ∧ frameKind { frame [] with etherType := 0x0800 } = .other ∧ isCycleFrame (frame []) = true
      ∧ inRun.riu.p1Up = true ∧ inRun.riu.p2Up = true ∧ (∀ n ∈ inRun.riu.inFlight, n.number ≠ frameNumber (frame []))
      ∧ (Settled 0 State.reset ∧ State.reset.riu.station = .unaddressed ∧ State.reset.riu.p1Up = true)
      ∧ Settled 0 { inRun with riu := { inRun.riu with ringLoss := true } } := by
  simp only [Settled, NothingDue, ArmQuiet, deadlineAhead_iff, forall_arm, forall_kind]
  repeat' refine And.intro ?_ ?_
  all_goals decide +kernel

theorem witness_ResetAndLinks :
    { State.reset with riu := { State.reset.riu with inReset := true } }.riu.inReset = true ∧ Settled 1500000 inRun
      ∧ isCycleFrame (linkFrame 1 0) = false ∧ isWrongLength (frame []) = false ∧ frameKind (frame []) ≠ .linkCheck
      ∧ frameKind (frame []) ≠ .other
      ∧ { inRun with riu := { inRun.riu with p1Up := false } }.riu.p1Up = false := by
  simp only [Settled, NothingDue, ArmQuiet, deadlineAhead_iff, forall_arm, forall_kind]
  repeat' refine And.intro ?_ ?_
  all_goals decide +kernel

theorem witness_OutboundPass :
    (Settled 1500000 inRun ∧ BanksSound inRun ∧ InService inRun ∧ inRun.riu.p1Up = true ∧ inRun.riu.p2Up = true
        ∧ windowOffset inRun = 64)
      ∧ (isCycleFrame (asking 7 0x51 7) = true ∧ Memory.wf (asking 7 0x51 7).payload = true
        ∧ Memory.read (asking 7 0x51 7).payload 65 = 0x51 ∧ (Memory.read (asking 7 0x51 7).payload 72).toNat ≤ 7
        ∧ inRun.riu.address = some (Memory.read (asking 7 0x51 7).payload 64))
      ∧ 7 < (Memory.read (asking 7 0x51 8).payload 72).toNat ∧ Memory.read (asking 7 0x20 0).payload 65 = 0x20 ∧ Memory.read (asking 0 0 0).payload 65 = 0
      ∧ inRun.riu.address ≠ some (Memory.read (asking 8 1 0).payload 64)
      ∧ mayFollowPass (readRequest (asking 7 0x03 0).payload 64) = true
      ∧ Memory.read (asking 7 0x7F 0).payload 65 = 0x7F := by
  simp only [Settled, BanksSound, NothingDue, ArmQuiet, deadlineAhead_iff, forall_arm, forall_kind]
  repeat' refine And.intro ?_ ?_
  all_goals decide +kernel

theorem witness_OutboundPass_slot :
    let r : RequestSlot := ⟨7, 0x20, 0, 1, 0, 0, 0, ⟨0, 0, 0, 0, 0, 0⟩⟩
    inRun.riu.address = some r.address ∧ mountedTip inRun .a = some r.target.toNat
      ∧ inRun.riu.address ≠ some { r with address := 8 }.address := by decide +kernel

theorem witness_OutboundPass_unknown : ∀ q, requestByte q ≠ 0x7F := by
  intro q; cases q <;> decide

theorem witness_LoopBackPass :
    let s := { inRun with riu := { inRun.riu with p2Up := false } }
    Settled 0 s ∧ InService s ∧ BanksSound s ∧ s.riu.p1Up = true ∧ s.riu.p2Up = false ∧ isCycleFrame (asking 0 0 0) = true
      ∧ Memory.wf (asking 0 0 0).payload = true ∧ Memory.read (asking 0 0 0).payload (windowOffset s + 1) = 0
      ∧ s.riu.station = .run ∧ activeBank (.armMap .a) s ≠ none ∧ s.thu.restart = false := by
  simp only [Settled, BanksSound, NothingDue, ArmQuiet, deadlineAhead_iff, forall_arm, forall_kind]
  repeat' refine And.intro ?_ ?_
  all_goals decide +kernel

/-- The block in RUN or CONFIG with frame 1 in flight. -/
def inFlight1 (s : State) : State := { s with riu := { s.riu with inFlight := some ⟨1, 1000000, 64, ⟨none, none⟩⟩ } }

/-- The returning frame 1 with arm A's sample: written, its status, its counts, its capture time. -/
def returning (status : Byte) : RingFrame :=
  frame ([(320, 1)] ++ (if status = 0 then [] else [(321, status)]) ++ [(324, 10), (328, 20), (332, 30), (336, 64)])

theorem witness_ReturnPassReplies :
    Settled 0 (inFlight1 inRun) ∧ InService (inFlight1 inRun) ∧ BanksSound (inFlight1 inRun) ∧ (inFlight1 inRun).riu.p2Up = true
      ∧ isCycleFrame (returning 0) = true ∧ Memory.wf (returning 0).payload = true
      ∧ (inFlight1 inRun).riu.inFlight = some ⟨1, 1000000, 64, ⟨none, none⟩⟩ ∧ (inFlight1 inRun).riu.ringLoss = false ∧ frameNumber (returning 0) = 1
      ∧ (inFlight1 inRun).riu.p1Up = true := by
  simp only [Settled, BanksSound, NothingDue, ArmQuiet, deadlineAhead_iff, forall_arm, forall_kind]
  repeat' refine And.intro ?_ ?_
  all_goals decide +kernel

/-- R129, R161, R168: a check that completes on a pass is taken after the selection, and a STATUS_READ that follows it shows
PASSED; before the selection it is passed over. -/
theorem test_check_completes_within_pass :
    let s := inFlight1 (inRun.onTbs .stationRecord (fun t => { t with staging := record66, state := .checking 13422 16 false }))
    let waits := { s with rqu := { s.rqu with awaiting := some ⟨7, 3, 0, 8, 6, 0, 0, ⟨0, 0, 0, 0, 0, 0⟩⟩ } }
    let t (order : List Part) := after (.cycleFrameReturn 0 (returning 0) ⟨order, [], [], []⟩) waits
    ((t [.checks, .select, .check .stationRecord]).rqu.exchange.data.take 3).map (·.toNat) = [259 + 65536, 4294967295, 1]
      ∧ ((t [.checks, .check .stationRecord]).rqu.exchange.data.take 3).map (·.toNat) = [258 + 65536, 0, 0] := by decide +kernel

theorem witness_PositionBlocks_sample :
    (∀ off, ¬ SlotAt State.reset 1 0 off)
      ∧ (SlotAt inRun 1 0 320 ∧ marked (returning 0).payload 320 ∧ Memory.read (returning 0).payload 321 = 0
        ∧ Memory.read (returning 1).payload 321 = 1 ∧ Memory.read (returning 2).payload 321 = 2
        ∧ Memory.read (returning 255).payload 321 = 255 ∧ marked (returning 255).payload 320)
      ∧ SlotAt inRun 1 1 344 ∧ ¬ marked (returning 0).payload 344 := by
  refine ⟨fun off ⟨m, hm, _⟩ => (by cases hm), ⟨⟨slots111, rfl, 0, by decide⟩, ?_⟩, ⟨slots111, rfl, 1, by decide⟩, by decide⟩
  decide

theorem witness_PositionBlocks :
    (Settled 0 (inFlight1 inRun) ∧ Settled 0 (inFlight1 inConfig) ∧ InService (inFlight1 inConfig))
      ∧ (inFlight1 inConfig).riu.station = .config ∧ activeBank (.armMap .b) (inFlight1 inRun) = none
      ∧ activeBank (.armMap .a) (inFlight1 inRun) = some map1
      ∧ readSample (activeBank .slotMap (inFlight1 inRun)) (returning 0).payload .a = .valid ⟨⟨10, 20, 30⟩, 64⟩
      ∧ readSample (activeBank .slotMap (inFlight1 inRun)) (returning 2).payload .a = .invalid .notReferenced 64
      ∧ readSample (activeBank .slotMap (inFlight1 inRun)) (returning 0).payload .b = .invalid .notWritten 0
      ∧ (inFlight1 inRun).riu.ringLoss = false ∧ activeBank .stationRecord (inFlight1 inConfig) = none
      ∧ (let s := inFlight1 (withTrigger (.latched { latch38 with contact := 64 }) inRun);
        Settled 0 s ∧ triggerOf s .a = .latched { latch38 with contact := 64 } ∧ (s.cenOf .a).history = []) := by
  simp only [Settled, NothingDue, ArmQuiet, deadlineAhead_iff, forall_arm, forall_kind]
  repeat' refine And.intro ?_ ?_
  all_goals decide +kernel

end Sys2Proof.Tests
end

section
/-! The lookup of an error table (R8, R9, R10): what `lookup` answers in each region of the axis, and what `interpolate`
gives at a position written as a whole number of pitches and a remainder. -/
namespace Sys2Proof.Proofs

open Sys2Proof.Machine

section
variable {b : Bank} {i : Nat} {pos : Int}

/-- A pitch of 0 reads as the default pitch, so a division by the pitch is always a real one. -/
theorem tablePitch_pos (b : Bank) (i : Nat) : 0 < tablePitch b i := by
  unfold tablePitch
  split <;> omega

@[simp] theorem isIdentity_iff :
    isIdentity b i = true ↔ tableCount b i = 2 ∧ tableNode b i 0 = 0 ∧ tableNode b i 1 = 0 := by
  simp [isIdentity, and_assoc]

/-! ### The regions of the axis -/

theorem lookup_of_identity (h : isIdentity b i) : lookup b i pos = ⟨0, false⟩ := by
  simp only [lookup, if_pos h]

theorem lookup_below_span (hid : ¬ isIdentity b i) (hlow : pos < tableStart b i) :
    lookup b i pos = ⟨tableNode b i 0, true⟩ := by
  simp only [lookup, if_neg hid, if_pos hlow]

theorem lookup_above_span (hid : ¬ isIdentity b i)
    (hhigh : tableStart b i + ((tableCount b i - 1) * tablePitch b i : Nat) < pos) :
    lookup b i pos = ⟨tableNode b i (tableCount b i - 1), true⟩ := by
  have hlow : ¬ pos < tableStart b i := by omega
  simp only [lookup, if_neg hid, if_neg hlow, if_pos hhigh]

theorem lookup_inside_span {d : Nat} (hid : ¬ isIdentity b i) (hd : d ≤ (tableCount b i - 1) * tablePitch b i) :
    lookup b i (tableStart b i + d) = ⟨interpolate b i d, false⟩ := by
  have hlow : ¬ tableStart b i + d < tableStart b i := by omega
  have hhigh : ¬ tableStart b i + ((tableCount b i - 1) * tablePitch b i : Nat) < tableStart b i + d := by omega
  have hoffset : (tableStart b i + d - tableStart b i).toNat = d := by omega
  simp only [lookup, if_neg hid, if_neg hlow, if_neg hhigh, hoffset]

/-! ### The interpolation at a node and between two nodes -/

theorem interpolate_last_node :
    interpolate b i ((tableCount b i - 1) * tablePitch b i) = tableNode b i (tableCount b i - 1) := by
  simp only [interpolate, Nat.mul_div_cancel _ (tablePitch_pos b i), if_true]

theorem interpolate_after_node {n u : Nat} (hn : n < tableCount b i - 1) (hu : u < tablePitch b i) :
    interpolate b i (n * tablePitch b i + u)
      = tableNode b i n + roundDiv ((tableNode b i (n + 1) - tableNode b i n) * u) (tablePitch b i) := by
  obtain ⟨hdiv, hmod⟩ : (n * tablePitch b i + u) / tablePitch b i = n ∧ (n * tablePitch b i + u) % tablePitch b i = u :=
    (Nat.div_mod_unique (tablePitch_pos b i)).2 ⟨by ring, hu⟩
  simp only [interpolate, hdiv, hmod, if_neg hn.ne]

/-- A node before the last and an offset below one pitch lie inside the span. -/
theorem node_offset_le_span {n last u pitch : Nat} (hn : n < last) (hu : u < pitch) : n * pitch + u ≤ last * pitch :=
  calc n * pitch + u ≤ (n + 1) * pitch := by rw [Nat.succ_mul]; omega
    _ ≤ last * pitch := Nat.mul_le_mul_right pitch hn

end

/-- Settles O46, region by region: each region's equation for `lookup`, and inside the span the value of `interpolate`
at the last node and after an earlier one. -/
theorem tableLookup : Obligations.TableLookup := by
  unfold Obligations.TableLookup
  intro b i pos pitch last node start identity
  have hiff : isIdentity b i = true ↔ identity := isIdentity_iff
  rw [← hiff]
  refine ⟨lookup_of_identity, lookup_below_span, fun hid _ habove => ?above, fun hid _ hpos => ?atLast,
    fun n u hid hn hu hpos => ?between⟩
  case above => exact lookup_above_span hid (by rwa [Nat.cast_mul])
  case atLast =>
    have hoffset : pos = start + ((last * pitch : Nat) : Int) := by rw [hpos, Nat.cast_mul]
    rw [hoffset, lookup_inside_span hid le_rfl, interpolate_last_node]
  case between =>
    have hoffset : pos = start + ((n * pitch + u : Nat) : Int) := by
      rw [hpos, Nat.cast_add, Nat.cast_mul, add_assoc]
    rw [hoffset, lookup_inside_span hid (node_offset_le_span hn hu), interpolate_after_node hn hu]

end Sys2Proof.Proofs
end

section
/-! The aggregation of a role (R38 to R41): the values that contribute, the aggregate they give, and what a stale onset
changes outside the Thermal Unit. -/
namespace Sys2Proof.Proofs

open Sys2Proof.Machine Sys2Proof.Laws

section
variable {table : Bank} {a i : Nat} {s t : State} {x y : Arm}

/-! ### Hold causes under the hold mask -/

theorem causeBit_lt (c : Cause) : causeBit c < 12 := by cases c <;> decide

theorem causeBit_inj {c d : Cause} : causeBit c = causeBit d ↔ c = d := by
  cases c <;> cases d <;> decide

theorem hasCause_addCause {cs : BitVec 12} {c d : Cause} :
    hasCause (addCause cs d) c = true ↔ hasCause cs c = true ∨ c = d := by
  simp [hasCause, addCause, causeOnly, causeBit_lt, causeBit_inj]

theorem maskSet_iff {m : MaskBit} : maskSet x m s = true ↔ MaskHas s x (maskIndex m) := by
  unfold maskSet MaskHas
  cases armBank x s <;> simp [maskBit]

/-- The hold mask is read from the Correction Engine's bank alone. -/
theorem maskSet_congr {m : MaskBit} (h : t.cen = s.cen) : maskSet x m t = maskSet x m s := by
  simp only [maskSet, armBank, State.cenOf, h]

theorem raise_mgdOf {c : Cause} :
    (raise x c s).mgdOf y
      = { s.mgdOf y with causes := if y = x then addCause (s.mgdOf y).causes c else (s.mgdOf y).causes } := by
  by_cases h : y = x
  · subst h; simp [raise]
  · simp [raise, onMgd_mgdOf_other _ _ h, h]

theorem whenDo_raiseMasked_mgdOf {b : Bool} {m : MaskBit} {c : Cause} :
    (whenDo b (raiseMasked x m c) s).mgdOf y
      = { s.mgdOf y with
          causes := if b = true ∧ y = x ∧ maskSet x m s = true then addCause (s.mgdOf y).causes c
            else (s.mgdOf y).causes } := by
  unfold whenDo raiseMasked
  cases b <;> cases maskSet x m s <;> simp [raise_mgdOf]

theorem whenDo_raiseMasked_touches {b : Bool} {m : MaskBit} {c : Cause} :
    Touches [.mgd] s (whenDo b (raiseMasked x m c) s) := by
  cases b
  · exact Touches.refl _ _
  · exact (raiseMasked_touches x m c (by simp)).2 (Touches.refl _ _)

theorem whenDo_raiseMasked_cen {b : Bool} {m : MaskBit} {c : Cause} :
    (whenDo b (raiseMasked x m c) s).cen = s.cen := whenDo_raiseMasked_touches.cen (by simp)

theorem whenDo_raiseMasked_evu {b : Bool} {m : MaskBit} {c : Cause} :
    (whenDo b (raiseMasked x m c) s).evu = s.evu := whenDo_raiseMasked_touches.evu (by simp)

theorem whenDo_raiseMasked_zones {b : Bool} {m : MaskBit} {c : Cause} :
    (whenDo b (raiseMasked x m c) s).mgd.zones = s.mgd.zones := by
  unfold whenDo raiseMasked
  cases b <;> cases maskSet x m s <;> simp

/-! ### A stale onset -/

theorem usesAggregate_iff : usesAggregate x a = true ↔ 6 ≤ a ∨ (x = .a ∧ a < 3) ∨ (x = .b ∧ 3 ≤ a) := by
  cases x <;> simp [usesAggregate] <;> omega

theorem staleOnset_mgdOf :
    (staleOnset a s).mgdOf x
      = { s.mgdOf x with
          causes := if usesAggregate x a = true ∧ maskSet x .thermal s = true
            then addCause (s.mgdOf x).causes .thermal else (s.mgdOf x).causes } := by
  have hpost : (post .thermal (.aggregateStale a) s).mgdOf x = s.mgdOf x := rfl
  have hmask : ∀ z, maskSet z .thermal (post .thermal (.aggregateStale a) s) = maskSet z .thermal s :=
    fun z => maskSet_congr rfl
  simp only [staleOnset, whenDo_raiseMasked_mgdOf, maskSet_congr whenDo_raiseMasked_cen, hmask, hpost]
  cases x <;> simp

theorem staleOnset_evu : (staleOnset a s).evu = (post .thermal (.aggregateStale a) s).evu := by
  simp only [staleOnset, whenDo_raiseMasked_evu]

theorem staleOnset_zones : (staleOnset a s).mgd.zones = s.mgd.zones := by
  simp only [staleOnset, whenDo_raiseMasked_zones, post_mgd]

/-! ### The values and the aggregate they give -/

theorem channelRecord_role : (channelRecord table i).role = some a ↔ wordNat table (8 * i) = a + 1 := by
  unfold channelRecord
  split <;> simp <;> omega

theorem channelOf_mem_or_reset : channelOf s i ∈ s.thu.channels ∨ channelOf s i = Channel.reset := by
  unfold channelOf
  rw [List.getD_eq_getElem?_getD]
  cases h : s.thu.channels[i]? with
  | none => exact .inr rfl
  | some c => exact .inl (List.mem_of_getElem? h)

/-- R33 to R37: a contributing channel, being in VALID or HELD, has a filter state. -/
theorem contributes_filter_ne_none (hkept : RecordsKept s) (h : contributes table s a i = true) :
    (channelOf s i).filter ≠ none := by
  obtain ⟨-, hfilter⟩ := hkept
  intro hnone
  have hstate : (channelOf s i).state = .noData :=
    channelOf_mem_or_reset.elim (fun hmem => (hfilter _ hmem).1 hnone) (fun hreset => by rw [hreset]; rfl)
  simp [contributes, hstate] at h

theorem contributions_eq_filterMap (hkept : RecordsKept s) :
    contributions table s a = ((List.range 24).filter (contributes table s a)).filterMap
      (fun i => (channelOf s i).filter.map (fun f => filteredValue f.y)) := by
  unfold contributions
  rw [← List.filterMap_eq_map]
  refine List.filterMap_congr fun i hi => ?_
  obtain ⟨f, hf⟩ := Option.ne_none_iff_exists'.1 (contributes_filter_ne_none hkept (List.mem_filter.1 hi).2)
  simp [hf]

theorem clampMean_of_lt {m : Int} (h : m < 10000) : clampMean m = ⟨10000, false, true⟩ := if_pos h

theorem clampMean_of_gt {m : Int} (h : 50000 < m) : clampMean m = ⟨50000, false, true⟩ := by
  have hlow : ¬ m < 10000 := by omega
  simp only [clampMean, if_neg hlow, if_pos h]

theorem clampMean_of_within {m : Int} (hlow : 10000 ≤ m) (hhigh : m ≤ 50000) : clampMean m = ⟨m, false, false⟩ := by
  simp only [clampMean, if_neg (not_lt.2 hlow), if_neg (not_lt.2 hhigh)]

theorem nextAggregate_of_fresh {vs : List Int} {g : Aggregate} (h : vs ≠ []) :
    nextAggregate vs g = ⟨clampMean (meanOf vs), true⟩ := if_neg h

theorem nextAggregate_of_held {g : Aggregate} (h : g.everFresh = true) :
    nextAggregate [] g = ⟨{ g.temp with stale := true }, true⟩ := by
  simp [nextAggregate, h]

theorem nextAggregate_of_neverFresh {g : Aggregate} (h : g.everFresh = false) :
    nextAggregate [] g = Aggregate.reset := by
  simp [nextAggregate, h]

theorem nextAggregate_stale_iff {vs : List Int} {g : Aggregate} :
    (nextAggregate vs g).temp.stale = true ↔ vs = [] := by
  by_cases h : vs = []
  · subst h
    cases hfresh : g.everFresh
    · simp [nextAggregate_of_neverFresh hfresh, Aggregate.reset, Temperature.reset]
    · simp [nextAggregate_of_held hfresh]
  · simp only [nextAggregate_of_fresh h, h, iff_false, clampMean]
    split_ifs <;> simp

/-! ### The role's step -/

/-- R41: whether the role has no contributing value and its aggregate was not stale. -/
def isStaleOnset (table : Bank) (a : Nat) (s : State) : Bool :=
  (contributions table s a).isEmpty && !(aggregateOf s a).temp.stale

theorem isStaleOnset_iff :
    isStaleOnset table a s = true ↔ contributions table s a = [] ∧ (aggregateOf s a).temp.stale = false := by
  simp [isStaleOnset]

/-- The state with the role's next aggregate, before what a stale onset does. -/
def aggregated (table : Bank) (a : Nat) (s : State) : State :=
  { s with thu := { s.thu with
      aggregates := s.thu.aggregates.set a (nextAggregate (contributions table s a) (aggregateOf s a)) } }

theorem aggregated_self (ha : a < s.thu.aggregates.length) :
    aggregateOf (aggregated table a s) a = nextAggregate (contributions table s a) (aggregateOf s a) := by
  simp [aggregateOf, aggregated, List.getD_eq_getElem?_getD, ha]

theorem aggregated_other (h : i ≠ a) : aggregateOf (aggregated table a s) i = aggregateOf s i := by
  simp [aggregateOf, aggregated, List.getD_eq_getElem?_getD, h.symm]

@[simp] theorem aggregated_mgd : (aggregated table a s).mgd = s.mgd := rfl

@[simp] theorem aggregated_mgdOf : (aggregated table a s).mgdOf x = s.mgdOf x := rfl

theorem aggregateRole_eq :
    aggregateRole table a s = whenDo (isStaleOnset table a s) (staleOnset a) (aggregated table a s) := by
  have honset : (!(aggregateOf s a).temp.stale
      && (nextAggregate (contributions table s a) (aggregateOf s a)).temp.stale) = isStaleOnset table a s := by
    rw [Bool.eq_iff_iff, isStaleOnset_iff, Bool.and_eq_true, nextAggregate_stale_iff, Bool.not_eq_true', and_comm]
  rw [← honset]
  rfl

theorem aggregateRole_of_onset (h : isStaleOnset table a s = true) :
    aggregateRole table a s = staleOnset a (aggregated table a s) := by
  rw [aggregateRole_eq, h]
  rfl

theorem aggregateRole_of_no_onset (h : isStaleOnset table a s = false) :
    aggregateRole table a s = aggregated table a s := by
  rw [aggregateRole_eq, h]
  rfl

theorem aggregateRole_thu : (aggregateRole table a s).thu = (aggregated table a s).thu := by
  cases h : isStaleOnset table a s
  · rw [aggregateRole_of_no_onset h]
  · rw [aggregateRole_of_onset h]
    exact ((staleOnset_touches (bs := [.mgd, .evu]) a (by simp) (by simp)).2 (Touches.refl _ _)).thu (by simp)

theorem aggregateRole_mgdOf :
    (aggregateRole table a s).mgdOf x
      = { s.mgdOf x with
          causes := if isStaleOnset table a s = true ∧ usesAggregate x a = true ∧ maskSet x .thermal s = true
            then addCause (s.mgdOf x).causes .thermal else (s.mgdOf x).causes } := by
  cases h : isStaleOnset table a s
  · simp [aggregateRole_of_no_onset h]
  · have hmask : maskSet x .thermal (aggregated table a s) = maskSet x .thermal s := maskSet_congr rfl
    simp [aggregateRole_of_onset h, staleOnset_mgdOf, hmask]

theorem aggregateRole_zones : (aggregateRole table a s).mgd.zones = s.mgd.zones := by
  cases h : isStaleOnset table a s
  · rw [aggregateRole_of_no_onset h, aggregated_mgd]
  · rw [aggregateRole_of_onset h, staleOnset_zones, aggregated_mgd]

/-- A change of three blocks at most, written as the update of those blocks. -/
theorem eq_of_touches_thermal (h : Touches [.thu, .mgd, .evu] s t) :
    t = { s with thu := t.thu, mgd := t.mgd, evu := t.evu } := by
  obtain ⟨hriu, hrqu, htbs, hcen, -, htcu, hpcc, -, -, hpending⟩ := h
  cases t
  simp_all

end

/-- Settles O49: the values are the model's contributions, the role's aggregate is the next one of those values, and what
lies outside the Thermal Unit changes at a stale onset alone. -/
theorem aggregationOfARole : Obligations.AggregationOfARole := by
  unfold Obligations.AggregationOfARole
  intro table a s ha hlength hkept g channel contributing vs n mean t onset arms
  have hvs : contributions table s a = vs := by
    have hcontributes : contributes table s a = contributing := by
      funext i
      simp only [contributes, channelRecord_role]
      rfl
    rw [contributions_eq_filterMap hkept, hcontributes]
    rfl
  have hthu : t.thu = (aggregated table a s).thu := aggregateRole_thu
  have hself : aggregateOf t a = nextAggregate vs g := by
    rw [aggregateOf, hthu, ← hvs]
    exact aggregated_self (by omega)
  have hmean (hv : vs ≠ []) : aggregateOf t a = ⟨clampMean mean, true⟩ := hself.trans (nextAggregate_of_fresh hv)
  have honsetIff : isStaleOnset table a s = true ↔ onset := by rw [isStaleOnset_iff, hvs]
  have hmgd (x : Arm) : t.mgdOf x = _ := aggregateRole_mgdOf
  refine ⟨fun hv hlow => ?below, fun hv hhigh => ?above, fun hv hlow hhigh => ?within, fun hv hfresh => ?held,
    fun hv hfresh => ?neverFresh, fun i _ hi => ?others, fun honset => ?posted, fun x c => ?causes, fun x => ?arm,
    aggregateRole_zones, fun honset => ?quiet, ?frame⟩
  case below => rw [hmean hv, clampMean_of_lt hlow]
  case above => rw [hmean hv, clampMean_of_gt hhigh]
  case within => rw [hmean hv, clampMean_of_within hlow hhigh]
  case held => rw [hself, hv, nextAggregate_of_held hfresh]
  case neverFresh => rw [hself, hv, nextAggregate_of_neverFresh hfresh]; rfl
  case others =>
    rw [aggregateOf, hthu]
    exact aggregated_other hi
  case posted =>
    have ht : t = _ := aggregateRole_of_onset (honsetIff.2 honset)
    rw [ht, staleOnset_evu]
    rfl
  case causes =>
    have hraises : isStaleOnset table a s = true ∧ usesAggregate x a = true ∧ maskSet x .thermal s = true
        ↔ onset ∧ arms x ∧ MaskHas s x 2 := and_congr honsetIff (and_congr usesAggregate_iff maskSet_iff)
    rw [hmgd x]
    simp only [hraises]
    split_ifs with h
    · simp only [hasCause_addCause, h, and_true]
    · simp only [h, and_false, or_false]
  case arm => rw [hmgd x]
  case quiet =>
    have ht : t = _ := aggregateRole_of_no_onset (by simpa using honsetIff.not.2 honset)
    rw [ht]
    rfl
  case frame =>
    have htouches : Touches [.thu, .mgd, .evu] s t :=
      (aggregateRole_touches table a (by simp) (by simp) (by simp)).2 (Touches.refl _ _)
    have hshape : t.thu = { s.thu with aggregates := t.thu.aggregates } := by rw [hthu]; rfl
    rw [← hshape]
    exact eq_of_touches_thermal htouches

end Sys2Proof.Proofs
end

section
/-! The table requests TABLE_WRITE, TABLE_CLEAR, TABLE_CHECK and TABLE_READ (R119, R121 to R124, R135): what the owner of
each answers, case by case, and the reply that the Request Unit records for that answer. -/
namespace Sys2Proof.Proofs

open Sys2Proof.Machine Sys2Proof.Laws

section
variable {s t : State} {kind count bank : Byte} {k : TableKind} {offset : BitVec 16} {words : ParamWords} {sum : Word}
  {r : Reply}

/-! ### From a request to its owner, and the owner's checks -/

theorem withKind_of_none {f : TableKind → State → Served} (hk : kindOf kind = none) :
    withKind kind f s = refuse .badParam s := by
  simp only [withKind, hk]

theorem withKind_of_some {f : TableKind → State → Served} (hk : kindOf kind = some k) : withKind kind f s = f k s := by
  simp only [withKind, hk]

theorem afterChecks_refuse {checks : List (Bool × Result)} {take : State → Served} {a : Result}
    (h : firstRefusal checks = some a) : afterChecks checks take s = refuse a s := by
  simp only [afterChecks, h]

/-- An owner's answer becomes the reply recorded, in the state the owner leaves. -/
theorem serve_of_owner {c : RequestCode} {own : State → Served} (h : InService s) (hc : refusedInConfig c = false)
    (hown : own s = ⟨t, r⟩) : serve c own s = withReply (requestByte c) r t := by
  rw [serve_inService h hc, hown]

theorem exec_tableWrite (h : InService s) (hown : ownTableWrite kind count offset words s = ⟨t, r⟩) :
    exec (.tableWrite kind count offset words) s = .next (withReply 0x10 r t) :=
  congrArg _ (serve_of_owner (c := .tableWrite) h rfl hown)

theorem exec_tableClear (h : InService s) (hown : ownTableClear kind s = ⟨t, r⟩) :
    exec (.tableClear kind) s = .next (withReply 0x11 r t) :=
  congrArg _ (serve_of_owner (c := .tableClear) h rfl hown)

theorem exec_tableCheck (h : InService s) (hown : ownTableCheck kind sum s = ⟨t, r⟩) :
    exec (.tableCheck kind sum) s = .next (withReply 0x12 r t) :=
  congrArg _ (serve_of_owner (c := .tableCheck) h rfl hown)

theorem exec_tableRead (h : InService s) (hown : ownTableRead kind bank offset s = ⟨t, r⟩) :
    exec (.tableRead kind bank offset) s = .next (withReply 0x14 r t) :=
  congrArg _ (serve_of_owner (c := .tableRead) h rfl hown)

/-! ### Banks -/

/-- A change of a kind's state is told by what it makes of the state that stands there. -/
theorem onTbs_congr {f g : TableState → TableState} (h : f (s.tbsOf k) = g (s.tbsOf k)) : s.onTbs k f = s.onTbs k g := by
  have htbs : s.tbs.modify k f = s.tbs.modify k g := by
    simp only [State.tbsOf] at h
    rcases k with _ | (_ | _) | _ | _ | _ <;> simp only [PerKind.get] at h <;> simp only [PerKind.modify, h]
  rw [State.onTbs, htbs, State.onTbs]

theorem onTbs_id : s.onTbs k id = s := by
  rcases k with _ | (_ | _) | _ | _ | _ <;> rfl

/-- R121: in a canonical bank the run written reads as the values written, and every other word as before. -/
theorem read_writeAll {m : Bank} {o : Nat} {vs : List Word} (hm : Memory.wf m = true) (a : Nat) :
    Memory.read (Memory.writeAll m o vs) a
      = if o ≤ a ∧ a < o + vs.length then vs.getD (a - o) 0 else Memory.read m a := by
  split_ifs with ha
  · obtain ⟨hlow, hhigh⟩ := ha
    obtain ⟨i, rfl⟩ := Nat.exists_eq_add_of_le hlow
    have hi : i < vs.length := by omega
    rw [read_writeAll_same hm hi, Nat.add_sub_cancel_left, List.getD_eq_getElem _ _ hi]
  · exact read_writeAll_other (by omega)

/-- The words a TABLE_WRITE of `n` words names are the first `n` parameter words. -/
theorem read_write_params {m : Bank} {o n : Nat} (hm : Memory.wf m = true) (hn : n ≤ 6) (a : Nat) :
    Memory.read (Memory.writeAll m o ((paramList words).take n)) a
      = if o ≤ a ∧ a < o + n then (paramList words).getD (a - o) 0 else Memory.read m a := by
  have hlength : ((paramList words).take n).length = n := by
    rw [List.length_take]
    exact min_eq_left hn
  rw [read_writeAll hm, hlength]
  refine ite_congr rfl (fun ha => ?_) (fun _ => rfl)
  rw [List.getD_eq_getElem?_getD, List.getD_eq_getElem?_getD, List.getElem?_take_of_lt (by omega)]

/-! ### TABLE_WRITE -/

theorem ownTableWrite_outOfRange (hk : kindOf kind = some k)
    (hrange : ¬ (1 ≤ count.toNat ∧ count.toNat ≤ 6 ∧ offset.toNat + count.toNat ≤ capacity k)) :
    ownTableWrite kind count offset words s = refuse .badParam s := by
  rw [ownTableWrite, withKind_of_some hk]
  refine afterChecks_refuse (if_pos ?_)
  simpa only [Bool.not_eq_true', Bool.and_eq_false_iff, decide_eq_false_iff_not, not_and_or, or_assoc] using hrange

theorem ownTableWrite_checking (hk : kindOf kind = some k)
    (hrange : 1 ≤ count.toNat ∧ count.toNat ≤ 6 ∧ offset.toNat + count.toNat ≤ capacity k)
    (hchecking : isChecking (s.tbsOf k).state = true) :
    ownTableWrite kind count offset words s = refuse .busy s := by
  rw [ownTableWrite, withKind_of_some hk]
  refine afterChecks_refuse ?_
  simp [firstRefusal, hrange, hchecking]

theorem ownTableWrite_taken (hk : kindOf kind = some k)
    (hrange : 1 ≤ count.toNat ∧ count.toNat ≤ 6 ∧ offset.toNat + count.toNat ≤ capacity k)
    (hchecking : isChecking (s.tbsOf k).state = false) :
    ownTableWrite kind count offset words s = served .done (s.onTbs k (fun u => { u with
      staging := Memory.writeAll (s.tbsOf k).staging offset.toNat ((paramList words).take count.toNat),
      state := .unchecked })) := by
  rw [ownTableWrite, withKind_of_some hk]
  refine (afterChecks_pass ?_).trans (congrArg (served .done) (onTbs_congr rfl))
  simp [hrange, hchecking]

/-! ### TABLE_CLEAR -/

theorem ownTableClear_checking (hk : kindOf kind = some k) (hchecking : isChecking (s.tbsOf k).state = true) :
    ownTableClear kind s = refuse .busy s := by
  rw [ownTableClear, withKind_of_some hk]
  exact afterChecks_refuse (if_pos hchecking)

theorem ownTableClear_taken (hk : kindOf kind = some k) (hchecking : isChecking (s.tbsOf k).state = false) :
    ownTableClear kind s = served .done (s.onTbs k (fun u => { u with staging := [], state := .empty })) := by
  rw [ownTableClear, withKind_of_some hk]
  exact afterChecks_pass (by simpa using hchecking)

/-- R122: a clear of a kind in EMPTY changes nothing, its staging bank being zero already (R120). -/
theorem ownTableClear_empty (hk : kindOf kind = some k) (hempty : (s.tbsOf k).state = .empty)
    (hzero : (s.tbsOf k).staging = []) : ownTableClear kind s = served .done s := by
  have hchecking : isChecking (s.tbsOf k).state = false := by rw [hempty]; rfl
  have hsame : s.onTbs k (fun u => { u with staging := [], state := .empty }) = s :=
    (onTbs_congr (by rw [← hempty, ← hzero]; rfl)).trans onTbs_id
  rw [ownTableClear_taken hk hchecking, hsame]

/-! ### TABLE_CHECK -/

theorem ownTableCheck_empty (hk : kindOf kind = some k) (hempty : (s.tbsOf k).state = .empty) :
    ownTableCheck kind sum s = refuse .wrongState s := by
  rw [ownTableCheck, withKind_of_some hk]
  exact afterChecks_refuse (if_pos (decide_eq_true hempty))

theorem state_ne_empty_of_isChecking {v : StagingState} (h : isChecking v = true) : v ≠ .empty := by
  rintro rfl
  cases h

theorem ownTableCheck_checking (hk : kindOf kind = some k) (hchecking : isChecking (s.tbsOf k).state = true) :
    ownTableCheck kind sum s = refuse .busy s := by
  rw [ownTableCheck, withKind_of_some hk]
  refine afterChecks_refuse ?_
  simp [firstRefusal, state_ne_empty_of_isChecking hchecking, hchecking]

theorem ownTableCheck_taken (hk : kindOf kind = some k) (hempty : (s.tbsOf k).state ≠ .empty)
    (hchecking : isChecking (s.tbsOf k).state = false) :
    ownTableCheck kind sum s
      = served .accepted (s.onTbs k (fun u => { u with state := .checking sum (capacity k) true })) := by
  rw [ownTableCheck, withKind_of_some hk]
  refine afterChecks_pass ?_
  simp [hempty, hchecking]

/-! ### TABLE_READ -/

theorem ownTableRead_outOfRange (hk : kindOf kind = some k) (hrange : capacity k ≤ offset.toNat ∨ 1 < bank.toNat) :
    ownTableRead kind bank offset s = refuse .badParam s := by
  rw [ownTableRead, withKind_of_some hk]
  by_cases ho : capacity k ≤ offset.toNat
  · exact if_pos ho
  · have hbank : 1 < bank.toNat := hrange.resolve_left ho
    have h0 : bank ≠ 0 := by rintro rfl; simp at hbank
    have h1 : bank ≠ 1 := by rintro rfl; simp at hbank
    simp only [if_neg ho, if_neg h0, if_neg h1]

theorem ownTableRead_active_none (hk : kindOf kind = some k) (ho : offset.toNat < capacity k)
    (hactive : (s.tbsOf k).active = none) : ownTableRead kind 0 offset s = refuse .notReady s := by
  rw [ownTableRead, withKind_of_some hk]
  simp only [if_neg (not_le.2 ho), if_pos, hactive]

theorem ownTableRead_active_some {b : Bank} (hk : kindOf kind = some k) (ho : offset.toNat < capacity k)
    (hactive : (s.tbsOf k).active = some b) :
    ownTableRead kind 0 offset s = ⟨s, ⟨.done, readSix k b offset.toNat⟩⟩ := by
  rw [ownTableRead, withKind_of_some hk]
  simp only [if_neg (not_le.2 ho), if_pos, hactive]

/-- R135: a staging bank is read in every state, CHECKING among them. -/
theorem ownTableRead_staging (hk : kindOf kind = some k) (ho : offset.toNat < capacity k) :
    ownTableRead kind 1 offset s = ⟨s, ⟨.done, readSix k (s.tbsOf k).staging offset.toNat⟩⟩ := by
  have h1 : (1 : Byte) ≠ 0 := by decide
  rw [ownTableRead, withKind_of_some hk]
  simp only [if_neg (not_le.2 ho), if_neg h1, if_pos]

end

/-- Settles O16: the owner's answer in each range and state, and the words of the bank from the laws of a run of writes. -/
theorem tableWriteWritesWords : Obligations.TableWriteWritesWords := by
  unfold Obligations.TableWriteWritesWords
  intro s kind count offset words h
  refine ⟨fun hk => exec_tableWrite h (withKind_of_none hk), fun k hk => ⟨fun hrange => ?outOfRange,
    fun hlow hhigh hcapacity hchecking => ?checking, fun hlow hhigh hcapacity hchecking hwf => ?taken⟩⟩
  case outOfRange => exact exec_tableWrite h (ownTableWrite_outOfRange hk hrange)
  case checking => exact exec_tableWrite h (ownTableWrite_checking hk ⟨hlow, hhigh, hcapacity⟩ hchecking)
  case taken =>
    exact ⟨_, exec_tableWrite h (ownTableWrite_taken hk ⟨hlow, hhigh, hcapacity⟩ hchecking), read_write_params hwf hhigh⟩

/-- Settles O17: the owners' answers by the state of the staging bank; a cleared bank lists nothing, so it reads zero. -/
theorem tableClearAndCheck : Obligations.TableClearAndCheck := by
  unfold Obligations.TableClearAndCheck
  intro s kind sum h
  refine ⟨fun hk => ⟨exec_tableClear h (withKind_of_none hk), exec_tableCheck h (withKind_of_none hk)⟩, fun k hk =>
    ⟨fun hchecking => ?checking, fun hchecking => ?cleared, fun hempty hbanks => ?clearedEmpty, fun hempty => ?checkEmpty,
      fun hempty hchecking => ?checkTaken⟩⟩
  case checking =>
    exact ⟨exec_tableClear h (ownTableClear_checking hk hchecking), exec_tableCheck h (ownTableCheck_checking hk hchecking)⟩
  case cleared =>
    refine ⟨_, exec_tableClear h (ownTableClear_taken hk hchecking), ?_⟩
    rw [onTbs_tbsOf]
    exact ⟨fun _ => rfl, rfl, rfl⟩
  case clearedEmpty =>
    obtain ⟨hkinds, -⟩ := hbanks
    obtain ⟨-, -, hzero⟩ := hkinds k
    exact exec_tableClear h (ownTableClear_empty hk hempty (hzero hempty))
  case checkEmpty => exact exec_tableCheck h (ownTableCheck_empty hk hempty)
  case checkTaken => exact exec_tableCheck h (ownTableCheck_taken hk hempty hchecking)

/-- Settles O20: the owner's answer by the offset, the bank named and whether the kind has an active bank. -/
theorem tableReadReturnsSixWords : Obligations.TableReadReturnsSixWords := by
  unfold Obligations.TableReadReturnsSixWords
  intro s kind bank offset h o six
  refine ⟨fun hk => exec_tableRead h (withKind_of_none hk), fun k hk => ⟨fun hrange => ?outOfRange,
    fun ho hbank hactive => ?activeNone, fun b hactive ho hbank => ?activeSome, fun ho hbank => ?staging⟩⟩
  case outOfRange => exact exec_tableRead h (ownTableRead_outOfRange hk hrange)
  case activeNone =>
    subst hbank
    exact exec_tableRead h (ownTableRead_active_none hk ho hactive)
  case activeSome =>
    subst hbank
    exact exec_tableRead h (ownTableRead_active_some hk ho hactive)
  case staging =>
    subst hbank
    exact exec_tableRead h (ownTableRead_staging hk ho)

end Sys2Proof.Proofs
end

section
/-! What a step can do, said once. Every command, and the settlement of an empty queue, is a sequence of moves: the small
steps of the blocks named in 95_what_each_step_holds.md, each taken under the condition that the command meets. An invariant that
every move keeps is kept by every step. -/
namespace Sys2Proof.Proofs

open Sys2Proof.Machine Sys2Proof.Laws

/-- Two states of the RIU that differ in the clock, the lines, the links, the deadline and the frame in flight alone. -/
structure SameStation (r v : Riu) : Prop where
  station  : v.station = r.station
  address  : v.address = r.address
  ringLoss : v.ringLoss = r.ringLoss
  missed   : v.missed = r.missed
  turned   : v.turned = r.turned
  record   : v.record = r.record

/-- The owner of a request code, for some operands (8.6). -/
inductive Owner : RequestCode → (State → Served) → Prop
  | stationMode (w) : Owner .stationMode (ownStationMode w)
  | stationReset : Owner .stationReset ownStationReset
  | statusRead (a b c) : Owner .statusRead (ownStatusRead a b c)
  | tableWrite (k c o w) : Owner .tableWrite (ownTableWrite k c o w)
  | tableClear (k) : Owner .tableClear (ownTableClear k)
  | tableCheck (k e) : Owner .tableCheck (ownTableCheck k e)
  | tableActivate (k) : Owner .tableActivate (ownTableActivate k)
  | tableRead (k b o) : Owner .tableRead (ownTableRead k b o)
  | tipSet (t f) : Owner .tipSet (ownTipSet t f)
  | tipRemove (t) : Owner .tipRemove (ownTipRemove t)
  | portSet (p v t) : Owner .portSet (ownPortSet p v t)
  | armTipSet (a t) : Owner .armTipSet (ownArmTipSet a t)
  | triggerArm (a) : Owner .triggerArm (ownTriggerArm a)
  | triggerDisarm (a) : Owner .triggerDisarm (ownTriggerDisarm a)
  | featureOpen (a) : Owner .featureOpen (ownFeatureOpen a)
  | featureClose (a) : Owner .featureClose (ownFeatureClose a)
  | workpieceSet (f) : Owner .workpieceSet (ownWorkpieceSet f)
  | workpieceClear : Owner .workpieceClear ownWorkpieceClear
  | thermalAdvance (a) : Owner .thermalAdvance (ownThermalAdvance a)
  | zoneClaim (a z) : Owner .zoneClaim (ownZoneClaim a z)
  | zoneRelease (a z) : Owner .zoneRelease (ownZoneRelease a z)
  | holdRelease (a r) : Owner .holdRelease (ownHoldRelease a r)
  | changeBegin (a d p) : Owner .changeBegin (ownChangeBegin a d p)
  | changeAbort (a) : Owner .changeAbort (ownChangeAbort a)
  | eventPriority (n p) : Owner .eventPriority (ownEventPriority n p)
  | reportLevel (l) : Owner .reportLevel (ownReportLevel l)

theorem ownerOf_owner (c : RequestCode) (r : RequestSlot) : Owner c (ownerOf c r) := by
  cases c <;> constructor

/-- A move of the block. -/
inductive Move (s : State) : State → Prop
  /-- The clock, the lines, the links, the deadline and the frame in flight. -/
  | line (v : Riu) (h : SameStation s.riu v) : Move s { s with riu := v }
  | missed (n : Nat) (h : n ≤ 65535) : Move s { s with riu := { s.riu with missed := n } }
  | turned : Move s (countTurned s)
  | record : Move s (refreshRecord s)
  /-- R150, R151: ring loss begins with RING on both arms, and ends. -/
  | ringBegin : Move s (raise .b .ring (raise .a .ring { s with riu := { s.riu with ringLoss := true } }))
  | ringEnd : Move s { s with riu := { s.riu with ringLoss := false } }
  | exchange (v : Rqu) : Move s { s with rqu := v }
  | post (src : EventSource) (d : Detail) : Move s (post src d s)
  /-- The marks of due steps (log 2). -/
  | touchMark (x : Arm) : Move s (s.onTcu x (fun u => { u with touchDue := .none }))
  | changeMark (x : Arm) : Move s (s.onPcc x (fun p => { p with changeDue := false }))
  | drainMark (v : Option Nat) : Move s { s with tcu := { s.tcu with drainDue := v } }
  /-- The steps that are rows of their own. -/
  | drain : Move s (drainPoints s)
  | resolve (x : Arm) : Move s (resolveTouch x s)
  | late (x : Arm) : Move s (lateTouch x s)
  | drop (x : Arm) : Move s (dropComplete x s)
  | pick (x : Arm) (headLast : Bool) : Move s (pickComplete x headLast s)
  | release (z : Nat) : Move s (deferredRelease z s)
  | rearm (x : Arm) : Move s (rearmExpiry x s)
  | autoAdvance (x : Arm) : Move s (autoAdvance x s)
  | check (k : TableKind) : Move s (checkComplete k s)
  | fault (x : Arm) (c : FaultCause) (d : Detail)
      (h : inStep (sessionOf s x) = true ∨ (sessionOf s x).state = .fault) : Move s (enterFault x c d s)
  | edge (x : Arm) : Move s (takeEdge x s)
  /-- The countdowns that a valid cycle frame moves, and the checks whose frame is past. -/
  | tickRearm (x : Arm) : Move s (tickRearm x s)
  | tickStep (x : Arm) : Move s (tickStep x s)
  | tickCountdown (x : Arm) : Move s (tickCountdown x s)
  | unfresh : Move s { s with tbs := s.tbs.all unfresh }
  /-- The parts of a return pass. -/
  | refreshMap (x : Arm) : Move s (refreshMap x s)
  | thermal (sync : BitVec 64) (input : Memory 8) (t : ThermalStep) : Move s (takeThermal sync input t s)
  | correct (x : Arm) (input : Memory 8) : Move s (correctArm x input s).state
  | numeric (x : Arm) (sat beyond : BitVec 3) : Move s (numericOnset x sat beyond s)
  | limits (x : Arm) (r : Chain) : Move s (passLimits x r s)
  | monitor (x : Arm) (t : Vec3) : Move s (monitorArm x t s)
  | status (x : Arm) (input : Memory 8) : Move s (readStatus x input s)
  | rack (input : Memory 8) (spared : List Nat) (t : RackStep) : Move s (takeRack input spared t s)
  | checks : Move s (checksPass s)
  | select : Move s (selectEvent s).2
  /-- R144: an address is taken in UNADDRESSED alone. -/
  | address (a : Byte) (h : s.riu.station = .unaddressed) : Move s (takeAddress a s)
  | powerOn (cut1 cut2 : Bool) : Move s (powerOn cut1 cut2 s)
  /-- A request that the common checks let through is served by its owner. -/
  | serve {c : RequestCode} {own : State → Served} (ho : Owner c own) (h : InService s)
      (hc : s.riu.station = .config → refusedInConfig c = false) : Move s (own s).state

/-- A sequence of moves. -/
abbrev Moves : State → State → Prop := Relation.ReflTransGen Move

theorem Move.moves {s t : State} (h : Move s t) : Moves s t := .single h

/-- What every move keeps, every sequence of moves keeps. -/
theorem Moves.keeps {P : State → Prop} (hP : ∀ {u v}, Move u v → P u → P v) {s t : State} (h : Moves s t) (hs : P s) :
    P t := by
  induction h with
  | refl => exact hs
  | tail _ hm ih => exact hP hm ih

section
variable {s t u : State} {x : Arm}

/-! ### Combinators -/

theorem bothArms_moves {f : Arm → State → State} (h : ∀ x u, Moves u (f x u)) (s : State) : Moves s (bothArms f s) :=
  (h .a s).trans (h .b _)

theorem foldl_moves {α : Type} {f : State → α → State} (h : ∀ u a, Moves u (f u a)) (l : List α) (s : State) :
    Moves s (l.foldl f s) := by
  induction l generalizing s with
  | nil => exact .refl
  | cons a l ih => exact (h s a).trans (ih _)

theorem ite_moves {c : Prop} [Decidable c] {a b : State} (ha : c → Moves s a) (hb : ¬ c → Moves s b) :
    Moves s (if c then a else b) := by
  split
  · exact ha ‹_›
  · exact hb ‹_›

theorem iteSelf_moves {c : Prop} [Decidable c] {a : State} (ha : c → Moves s a) : Moves s (if c then a else s) :=
  ite_moves ha (fun _ => .refl)

/-! ### The RIU -/

theorem riu_moves {v : Riu} (h : SameStation s.riu v := by exact ⟨rfl, rfl, rfl, rfl, rfl, rfl⟩) :
    Moves s { s with riu := v } := (Move.line v h).moves

theorem writeReturn_moves (o : Nat) (bs : List Byte) (s : State) : Moves s (writeReturn o bs s) :=
  riu_moves

theorem clearLines_moves (s : State) : Moves s (clearLines s) := riu_moves

theorem sendP1_moves (ok : Bool) (f : RingFrame) (s : State) : Moves s (sendP1 ok f s) :=
  riu_moves

theorem sendP2_moves (ok : Bool) (f : RingFrame) (s : State) : Moves s (sendP2 ok f s) :=
  riu_moves

theorem realign_moves (f : RingFrame) (s : State) : Moves s (realign f s) :=
  riu_moves

theorem recordInFlight_moves (f : RingFrame) (s : State) : Moves s (recordInFlight f s) :=
  riu_moves

theorem keepOffset_moves (t : Nat) (s : State) : Moves s (keepOffset t s) :=
  riu_moves

theorem takeFrame_moves (f : RingFrame) (s : State) : Moves s (takeFrame f s) :=
  riu_moves

theorem countTurned_moves (s : State) : Moves s (countTurned s) := Move.turned.moves

theorem dropLine1_moves (s : State) : Moves s (dropLine1 s) :=
  ite_moves (fun _ => .refl) (fun _ => riu_moves)

theorem withReply_moves (c : Byte) (r : Reply) (s : State) : Moves s (withReply c r s) := (Move.exchange _).moves

/-! ### Requests -/

theorem serve_moves {c : RequestCode} {own : State → Served} (ho : Owner c own) (s : State) : Moves s (serve c own s) := by
  unfold serve
  refine ite_moves (fun _ => .refl) (fun hin => ite_moves (fun _ => withReply_moves _ _ s) (fun hc => ?_))
  have hservice : InService s := ⟨by simpa using fun h => hin (.inl h), fun h => hin (.inr h)⟩
  have hcode : s.riu.station = .config → refusedInConfig c = false := fun h => by simpa using fun hr => hc ⟨h, hr⟩
  exact (Move.serve ho hservice hcode).moves.trans (withReply_moves _ _ _)

theorem takeRequest_moves (r : RequestSlot) (s : State) : Moves s (takeRequest r s) := by
  unfold takeRequest
  refine ite_moves (fun _ => .refl) (fun _ => ite_moves (fun _ => withReply_moves _ _ s) (fun _ => ?_))
  split
  · exact withReply_moves _ _ s
  · next c _ =>
    unfold serveSlot
    split
    · exact (keepOffset_moves _ s).trans (serve_moves (ownerOf_owner c r) _)
    · exact serve_moves (ownerOf_owner c r) s

theorem takeAwaiting_moves (s : State) : Moves s (takeAwaiting s) := by
  unfold takeAwaiting
  split
  · exact (Move.exchange _).moves.trans (takeRequest_moves _ _)
  · exact .refl

/-! ### Ring loss and the clock -/

theorem sessionRingLoss_moves (x : Arm) (s : State) : Moves s (sessionRingLoss x s) :=
  iteSelf_moves (fun h => (Move.fault x _ _ (by simpa using h)).moves)

theorem ringLossOnset_moves (bFirst : Bool) (s : State) : Moves s (ringLossOnset bFirst s) := by
  unfold ringLossOnset
  refine (((Move.ringBegin.moves.trans (sessionRingLoss_moves .a _)).trans (sessionRingLoss_moves .b _)).trans
    (ite_moves (fun _ => ?_) (fun _ => ?_))).tail (.post _ _)
  · exact (Move.late .b).moves.trans (Move.late .a).moves
  · exact (Move.late .a).moves.trans (Move.late .b).moves

theorem countMissing_moves (n : Nat) (bFirst : Bool) (s : State) : Moves s (countMissing n bFirst s) := by
  have hmissed := (Move.missed (s := s) (min Config.countCeiling (s.riu.missed + n)) (min_le_left _ _)).moves
  exact ite_moves (fun _ => hmissed.trans (ringLossOnset_moves bFirst _)) (fun _ => hmissed)

theorem missingArrival_moves (bFirst : Bool) (s : State) : Moves s (missingArrival bFirst s) :=
  iteSelf_moves (fun _ => (riu_moves).trans (countMissing_moves 1 bFirst _))

theorem reachDeadline_moves (bFirst : Bool) (s : State) : Moves s (reachDeadline bFirst s) := by
  unfold reachDeadline
  split
  · exact .refl
  · exact (riu_moves).trans (countMissing_moves 1 bFirst _)

theorem validArrival_moves (s : State) : Moves s (validArrival s) := by
  have hriu : Moves s { s with riu := { s.riu with
      missed := 0, deadline := s.riu.deadline.map (fun _ => clockAfter s.riu.clock (3 * periodNs s / 2)),
      ringLoss := false } } :=
    ((Move.missed 0 (by omega)).moves.tail .ringEnd).trans riu_moves
  exact ite_moves (fun _ => hriu.tail (.post _ _)) (fun _ => hriu)

theorem runClock_moves (elapsed : Nat) (s : State) : Moves s (runClock elapsed s) := by
  have hrun (v : State) : Moves v { v with riu := { v.riu with clock := clockAfter v.riu.clock elapsed } } :=
    riu_moves
  unfold runClock
  dsimp only
  split
  · exact hrun s
  · refine ite_moves (fun _ => hrun s) (fun _ => ?_)
    exact (riu_moves).trans (countMissing_moves _ false _)

/-! ### Settlement -/

theorem lateResolution_moves (x : Arm) (s : State) : Moves s (lateResolution x s) :=
  iteSelf_moves (fun _ => (Move.late x).moves)

theorem stepTimeout_moves (x : Arm) (s : State) : Moves s (stepTimeout x s) :=
  iteSelf_moves (fun h => (Move.fault x _ _ (.inl (by simpa using And.left (by simpa using h)))).moves)

theorem settlePass_moves (s : State) : Moves s (settlePass s) :=
  ((((((((bothArms_moves (fun x _ => (Move.resolve x).moves) s).trans
    (bothArms_moves lateResolution_moves _)).trans
    (bothArms_moves (fun x _ => (Move.drop x).moves) _)).trans
    (bothArms_moves (fun x _ => (Move.pick x false).moves) _)).trans
    (foldl_moves (fun _ z => (Move.release z).moves) _ _)).trans
    Move.drain.moves).trans
    (foldl_moves (fun _ k => (Move.check k).moves) _ _))).trans
    (bothArms_moves (fun x _ => (Move.rearm x).moves) _)

theorem settleFrame_moves (s : State) : Moves s (settleFrame s) :=
  (((takeAwaiting_moves s).trans (settlePass_moves _)).trans (bothArms_moves stepTimeout_moves _)).trans
    (bothArms_moves (fun x _ => (Move.autoAdvance x).moves) _)

theorem settleBefore_moves (elapsed : Nat) (s : State) : Moves s (settleBefore elapsed s) :=
  ite_moves (fun _ => settleFrame_moves s) (fun _ => settlePass_moves s)

theorem passTime_moves (elapsed : Nat) (s : State) : Moves s (passTime elapsed s) :=
  ((takeAwaiting_moves s).trans (ite_moves (fun _ => .refl) (fun _ => settleBefore_moves elapsed _))).trans
    (runClock_moves elapsed _)

theorem clearDue_moves (s : State) : Moves s (clearDue s) :=
  (Move.drainMark none).moves.trans
    (bothArms_moves (fun x _ => (Move.touchMark x).moves.tail (.changeMark x)) _)

theorem takeRow_moves (p : Part) (s : State) : Moves s (takeRow p s) := by
  cases p with
  | drain => exact Move.drain.moves
  | resolve x => exact (Move.resolve x).moves
  | late x => exact lateResolution_moves x s
  | drop x => exact (Move.drop x).moves
  | pick x headLast => exact (Move.pick x headLast).moves
  | release z => exact (Move.release z).moves
  | rearm x => exact (Move.rearm x).moves
  | autoAdvance x => exact (Move.autoAdvance x).moves
  | stepTimeout x => exact stepTimeout_moves x s
  | check k => exact (Move.check k).moves
  | _ => exact .refl

/-! ### The return pass -/

theorem thermalPass_moves (sync : BitVec 64) (input : Memory 8) (ts : List ThermalStep) (s : State) :
    Moves s (thermalPass sync input ts s) := foldl_moves (fun _ t => (Move.thermal sync input t).moves) ts s

theorem rackPass_moves (input : Memory 8) (spared : List Nat) (ts : List RackStep) (s : State) :
    Moves s (rackPass input spared ts s) := foldl_moves (fun _ t => (Move.rack input spared t).moves) ts s

theorem passChain_moves {f : Chain → State → State} (h : ∀ r u, Moves u (f r u)) (x : Arm) (w : PassWork) :
    Moves w.state (passChain x f w).state := by
  unfold passChain
  split
  · exact h _ _
  · exact .refl

theorem takeOwn_moves (c : PassInput) (p : Part) (w : PassWork) : Moves w.state (takeOwn c p w).state := by
  cases p with
  | thermal => exact thermalPass_moves _ _ _ _
  | correct x => exact (Move.correct x c.input).moves.trans (writeReturn_moves _ _ _)
  | numeric x => exact passChain_moves (fun r _ => (Move.numeric x r.saturated r.beyond).moves) x w
  | limits x => exact passChain_moves (fun r _ => (Move.limits x r).moves) x w
  | monitor x => exact passChain_moves (fun r _ => (Move.monitor x r.t).moves) x w
  | status x => exact (Move.status x c.input).moves
  | rack => exact rackPass_moves _ _ _ _
  | checks => exact Move.checks.moves
  | request => exact takeAwaiting_moves _
  | select => exact Move.select.moves.trans (writeReturn_moves _ _ _)
  | _ => exact .refl

theorem takeChosen_moves (c : PassInput) (w : PassWork) (p : Part) : Moves w.state (takeChosen c w p).state := by
  unfold takeChosen
  split
  · exact thermalPass_moves _ _ _ _
  split
  · exact rackPass_moves _ _ _ _
  split
  · split
    · split
      · exact takeOwn_moves c p { w with todo := w.todo.erase p }
      · exact .refl
    · exact takeRow_moves p _
  · exact .refl

theorem foldl_work_moves {α : Type} {f : PassWork → α → PassWork} (h : ∀ w a, Moves w.state (f w a).state) (l : List α)
    (w : PassWork) : Moves w.state (l.foldl f w).state := by
  induction l generalizing w with
  | nil => exact .refl
  | cons a l ih => exact (h w a).trans (ih _)

theorem runParts_moves (c : PassInput) (order : List Part) (w : PassWork) : Moves w.state (runParts c order w).state :=
  (foldl_work_moves (takeChosen_moves c) order w).trans (foldl_work_moves (fun w p => takeOwn_moves c p w) _ _)

theorem openDrain_moves (window : Nat) (s : State) : Moves s (openDrain window s) :=
  iteSelf_moves (fun _ => ((writeReturn_moves _ _ s).trans (writeReturn_moves _ _ _)).tail (.drainMark _))

theorem finishReturn_moves (window : Nat) (s : State) : Moves s (finishReturn window s) :=
  ((writeReturn_moves _ _ s).trans riu_moves).trans (dropLine1_moves _)

theorem returnPass_moves (n : InFlight) (f : RingFrame) (input : Memory 8) (choices : PassChoices) (s : State) :
    Moves s (returnPass n f input choices s) :=
  (((((clearDue_moves s).trans (bothArms_moves (fun x _ => (Move.refreshMap x).moves) _)).tail .record).trans
    (takeFrame_moves f _)).trans (openDrain_moves n.window _)).trans
    ((runParts_moves _ _ (passWork choices _)).trans (finishReturn_moves n.window _))

/-! ### The outbound pass -/

theorem tickFrame_moves (s : State) : Moves s (tickFrame s) := by
  have hticks := ((Move.unfresh (s := s)).moves.trans (bothArms_moves (fun x _ => (Move.tickRearm x).moves) _)).trans
    (bothArms_moves (fun x _ => (Move.tickStep x).moves) _)
  exact ite_moves (fun _ => hticks.trans (bothArms_moves (fun x _ => (Move.tickCountdown x).moves) _)) (fun _ => hticks)

theorem takeOutbound_moves (w : OutWork) (p : Part) : Moves w.state (takeOutbound w p).state := by
  unfold takeOutbound
  split
  · split
    · dsimp only
      split
      · exact takeAwaiting_moves _
      · exact .refl
    · exact .refl
  · exact takeRow_moves p _

theorem foldl_out_moves (l : List Part) (w : OutWork) : Moves w.state (l.foldl takeOutbound w).state := by
  induction l generalizing w with
  | nil => exact .refl
  | cons p l ih => exact (takeOutbound_moves w p).trans (ih _)

theorem runOutbound_moves (out : OutboundChoices) (r : RequestSlot) (s : State) : Moves s (runOutbound out r s).state :=
  (foldl_out_moves out.order ⟨_, s, 0⟩).trans (foldl_out_moves _ _)

theorem beginOutbound_moves (f : RingFrame) (r : RequestSlot) (s : State) : Moves s (beginOutbound f r s) :=
  ((((validArrival_moves s).trans (clearDue_moves _)).trans (recordInFlight_moves f _)).tail (.exchange _)).trans
    (tickFrame_moves _)

theorem forwardCycle_moves (f : RingFrame) (back : PassChoices) (s : State) : Moves s (forwardCycle f back s) := by
  unfold forwardCycle
  refine ite_moves (fun _ => sendP2_moves _ _ s) (fun _ => ?_)
  split
  · exact (countTurned_moves s).trans (returnPass_moves _ _ _ _ _)
  · exact (countTurned_moves s).trans (sendP1_moves _ _ _)

theorem stationOutbound_moves (f : RingFrame) (out : OutboundChoices) (back : PassChoices) (s : State) :
    Moves s (stationOutbound f out back s) :=
  ((beginOutbound_moves f _ s).trans (runOutbound_moves out _ _)).trans (forwardCycle_moves _ _ _)

theorem forwardP1_moves (ok turns : Bool) (f : RingFrame) (s : State) : Moves s (forwardP1 ok turns f s) :=
  ite_moves (fun _ => sendP2_moves _ _ s) (fun _ => iteSelf_moves (fun _ => sendP1_moves _ _ s))

theorem countIfTurned_moves (s : State) : Moves s (countIfTurned s) :=
  ite_moves (fun _ => .refl) (fun _ => countTurned_moves s)

theorem outboundPass_moves (f : RingFrame) (out : OutboundChoices) (back : PassChoices) (s : State) :
    Moves s (outboundPass f out back s) :=
  (realign_moves f s).trans
    (ite_moves (fun _ => (countIfTurned_moves _).trans (forwardP1_moves _ _ _ _)) (fun _ => stationOutbound_moves _ _ _ _))

/-! ### Arrivals -/

theorem arriveP1_moves (elapsed : Nat) (s : State) : Moves s (arriveP1 elapsed s) :=
  ((settleFrame_moves s).trans (runClock_moves elapsed _)).trans (clearLines_moves _)

theorem arrive_moves (elapsed : Nat) (s : State) : Moves s (arrive elapsed s) :=
  (((takeAwaiting_moves s).trans (settleBefore_moves elapsed _)).trans (runClock_moves elapsed _)).trans (clearLines_moves _)

theorem arriveBack_moves (elapsed : Nat) (f : RingFrame) (s : State) : Moves s (arriveBack elapsed f s) :=
  ite_moves (fun _ => ((settlePass_moves s).trans (runClock_moves elapsed _)).trans (clearLines_moves _))
    (fun _ => arrive_moves elapsed s)

theorem passP2_moves (ok : Bool) (elapsed : Nat) (f : RingFrame) (s : State) : Moves s (passP2 ok elapsed f s) :=
  (arrive_moves elapsed s).trans (sendP1_moves _ _ _)

theorem answerLinkCheck_moves (f : RingFrame) (s : State) : Moves s (answerLinkCheck f s).2 := by
  unfold answerLinkCheck
  split
  · exact .refl
  split
  · next hgiven =>
    refine (Move.address _ ?_).moves
    simp only [addressGiven, ite_eq_iff] at hgiven
    obtain ⟨⟨hstation, -⟩, -⟩ | ⟨-, hnone⟩ := hgiven
    · exact hstation
    · cases hnone
  · exact .refl

theorem linkCheckAtP1_moves (elapsed : Nat) (f : RingFrame) (s : State) : Moves s (linkCheckAtP1 elapsed f s) :=
  (arrive_moves elapsed s).trans
    (ite_moves (fun _ => (answerLinkCheck_moves f _).trans (forwardP1_moves _ _ _ _)) (fun _ => forwardP1_moves _ _ _ _))

theorem passTimeOutOfReset_moves (elapsed : Nat) (s : State) : Moves s (passTimeOutOfReset elapsed s) :=
  ite_moves (fun _ => .refl) (fun _ => passTime_moves elapsed s)

/-! ### Commands -/

theorem exec_moves (c : Instr) (s : State) : ∃ t, exec c s = .next t ∧ Moves s t := by
  cases c with
  | cycleFrameOutbound e f o b =>
    exact ⟨_, rfl, iteSelf_moves (fun _ => (arriveP1_moves e s).trans (outboundPass_moves f o b _))⟩
  | cycleFrameReturn e f c =>
    refine ⟨_, rfl, iteSelf_moves (fun _ => ?_)⟩
    dsimp only
    split
    · exact (arriveBack_moves e f s).trans (returnPass_moves _ f _ c _)
    · exact (arriveBack_moves e f s).trans (sendP1_moves _ f _)
  | pointDrain => exact ⟨_, rfl, Move.drain.moves⟩
  | touchResolve x => exact ⟨_, rfl, (Move.resolve x).moves⟩
  | lateResolution x => exact ⟨_, rfl, lateResolution_moves x s⟩
  | triggerEdge e x r =>
    exact ⟨_, rfl, ite_moves (fun _ => .refl)
      (fun _ => (passTime_moves e s).trans (iteSelf_moves (fun _ => (Move.edge x).moves)))⟩
  | rearmExpiry x => exact ⟨_, rfl, (Move.rearm x).moves⟩
  | autoAdvanceExpiry x => exact ⟨_, rfl, (Move.autoAdvance x).moves⟩
  | stepTimeout x => exact ⟨_, rfl, stepTimeout_moves x s⟩
  | dropComplete x => exact ⟨_, rfl, (Move.drop x).moves⟩
  | pickComplete x h => exact ⟨_, rfl, (Move.pick x h).moves⟩
  | deferredRelease z => exact ⟨_, rfl, (Move.release z).moves⟩
  | missedFrameDeadline b =>
    exact ⟨_, rfl, iteSelf_moves (fun _ => (settleFrame_moves s).trans (reachDeadline_moves b _))⟩
  | badCheckFrame e p f b =>
    refine ⟨_, rfl, iteSelf_moves (fun _ => ?_)⟩
    cases p with
    | p1 => exact ((arriveP1_moves e s).trans (missingArrival_moves b _)).trans (forwardP1_moves _ _ f _)
    | p2 => exact passP2_moves _ e f s
  | wrongLengthFrame e p f b =>
    refine ⟨_, rfl, iteSelf_moves (fun _ => ?_)⟩
    cases p with
    | p1 =>
      exact (((arriveP1_moves e s).trans (missingArrival_moves b _)).trans (countIfTurned_moves _)).trans
        (forwardP1_moves _ _ f _)
    | p2 => exact passP2_moves _ e f s
  | linkCheckFrame e p f =>
    refine ⟨_, rfl, iteSelf_moves (fun _ => ?_)⟩
    cases p with
    | p1 => exact linkCheckAtP1_moves e f s
    | p2 => exact passP2_moves _ e f s
  | otherFrame e p f =>
    refine ⟨_, rfl, iteSelf_moves (fun _ => ?_)⟩
    cases p with
    | p1 => exact (arrive_moves e s).trans (forwardP1_moves _ _ f _)
    | p2 => exact passP2_moves _ e f s
  | powerOnReset a b => exact ⟨_, rfl, (Move.powerOn a b).moves⟩
  | powerOnResetEnd => exact ⟨_, rfl, riu_moves⟩
  | p2LinkChange e u => exact ⟨_, rfl, (passTimeOutOfReset_moves e s).trans riu_moves⟩
  | p1LinkChange e u => exact ⟨_, rfl, (passTimeOutOfReset_moves e s).trans riu_moves⟩
  | tableCheckComplete k => exact ⟨_, rfl, (Move.check k).moves⟩
  | stationMode w => exact ⟨_, rfl, serve_moves (.stationMode w) s⟩
  | stationReset => exact ⟨_, rfl, serve_moves .stationReset s⟩
  | statusRead a b c => exact ⟨_, rfl, serve_moves (.statusRead a b c) s⟩
  | tableWrite k n o w => exact ⟨_, rfl, serve_moves (.tableWrite k n o w) s⟩
  | tableClear k => exact ⟨_, rfl, serve_moves (.tableClear k) s⟩
  | tableCheck k e => exact ⟨_, rfl, serve_moves (.tableCheck k e) s⟩
  | tableActivate k => exact ⟨_, rfl, serve_moves (.tableActivate k) s⟩
  | tableRead k b o => exact ⟨_, rfl, serve_moves (.tableRead k b o) s⟩
  | tipSet t f => exact ⟨_, rfl, serve_moves (.tipSet t f) s⟩
  | tipRemove t => exact ⟨_, rfl, serve_moves (.tipRemove t) s⟩
  | portSet p v t => exact ⟨_, rfl, serve_moves (.portSet p v t) s⟩
  | armTipSet a t => exact ⟨_, rfl, serve_moves (.armTipSet a t) s⟩
  | triggerArm a => exact ⟨_, rfl, serve_moves (.triggerArm a) s⟩
  | triggerDisarm a => exact ⟨_, rfl, serve_moves (.triggerDisarm a) s⟩
  | featureOpen a => exact ⟨_, rfl, serve_moves (.featureOpen a) s⟩
  | featureClose a => exact ⟨_, rfl, serve_moves (.featureClose a) s⟩
  | workpieceSet f => exact ⟨_, rfl, serve_moves (.workpieceSet f) s⟩
  | workpieceClear => exact ⟨_, rfl, serve_moves .workpieceClear s⟩
  | thermalAdvance a => exact ⟨_, rfl, serve_moves (.thermalAdvance a) s⟩
  | zoneClaim a z => exact ⟨_, rfl, serve_moves (.zoneClaim a z) s⟩
  | zoneRelease a z => exact ⟨_, rfl, serve_moves (.zoneRelease a z) s⟩
  | holdRelease a r => exact ⟨_, rfl, serve_moves (.holdRelease a r) s⟩
  | changeBegin a d p => exact ⟨_, rfl, serve_moves (.changeBegin a d p) s⟩
  | changeAbort a => exact ⟨_, rfl, serve_moves (.changeAbort a) s⟩
  | eventPriority n p => exact ⟨_, rfl, serve_moves (.eventPriority n p) s⟩
  | reportLevel l => exact ⟨_, rfl, serve_moves (.reportLevel l) s⟩

/-- A step is a sequence of moves from the state with its command taken off the queue. -/
theorem step_moves {s t : State} (h : step s = .next t) : ∃ rest, Moves { s with pending := rest } t := by
  unfold step at h
  split at h
  · obtain rfl : settleFrame s = t := by simpa using h
    exact ⟨s.pending, settleFrame_moves s⟩
  · next c rest _ =>
    obtain ⟨u, hu, hmoves⟩ := exec_moves c { s with pending := rest }
    obtain rfl : u = t := by simpa using hu.symm.trans h
    exact ⟨rest, hmoves⟩

/-- A predicate of the blocks that every move keeps is kept by every step. -/
theorem step_keeps {P : State → Prop} (hqueue : ∀ s rest, P s → P { s with pending := rest })
    (hmove : ∀ {u v}, Move u v → P u → P v) {s t : State} (hs : P s) (h : step s = .next t) : P t := by
  obtain ⟨rest, hmoves⟩ := step_moves h
  exact Moves.keeps hmove hmoves (hqueue s rest hs)

end

end Sys2Proof.Proofs
end

section
/-! The machine: a step takes the command at the front of the queue, and no command changes the queue. -/
namespace Sys2Proof.Proofs

open Sys2Proof.Machine Sys2Proof.Laws

/-- Settles O1: the first clause is the definition of a step, the second the settlement of a block with nothing due. -/
theorem stepTakesFront : Obligations.StepTakesFront := by
  unfold Obligations.StepTakesFront
  refine ⟨fun c rest s => rfl, fun s hquiet hempty => ?_⟩
  simp only [step, hempty, settleFrame_quiet hquiet]

/-- Every block of the state. -/
def everyBlock : List Block := [.riu, .rqu, .tbs, .cen, .thu, .tcu, .pcc, .mgd, .evu]

theorem mem_everyBlock (b : Block) : b ∈ everyBlock := by cases b <;> decide

section
variable {s : State} {bs : List Block}

/-! ### What an owner does by its target and its checks -/

theorem withArm_keeps {Q : State → Prop} {v : Byte} {f : Arm → State → Served} (hs : Q s) (h : ∀ x, Q (f x s).state) :
    Q (withArm v f s).state := by
  unfold withArm
  split
  · exact hs
  · exact h _

theorem withKind_keeps {Q : State → Prop} {v : Byte} {f : TableKind → State → Served} (hs : Q s)
    (h : ∀ k, Q (f k s).state) : Q (withKind v f s).state := by
  unfold withKind
  split
  · exact hs
  · exact h _

theorem afterChecks_keeps {Q : State → Prop} {checks : List (Bool × Result)} {f : State → Served} (hs : Q s)
    (h : firstRefusal checks = none → Q (f s).state) : Q (afterChecks checks f s).state := by
  unfold afterChecks
  split
  · exact hs
  · exact h ‹_›

theorem withArm_touches {v : Byte} {f : Arm → State → Served} (h : ∀ x, Touches bs s (f x s).state) :
    Touches bs s (withArm v f s).state := withArm_keeps (.refl _ _) h

theorem withKind_touches {v : Byte} {f : TableKind → State → Served} (h : ∀ k, Touches bs s (f k s).state) :
    Touches bs s (withKind v f s).state := withKind_keeps (.refl _ _) h

theorem afterChecks_touches {checks : List (Bool × Result)} {f : State → Served} (h : Touches bs s (f s).state) :
    Touches bs s (afterChecks checks f s).state := afterChecks_keeps (.refl _ _) (fun _ => h)

end

section
variable {s u : State} {bs : List Block}

@[simp] theorem evictTip_touches {p : Nat} {v : PortState} (hpcc : Block.pcc ∈ bs) :
    Touches bs s (evictTip p v u) ↔ Touches bs s u := by
  unfold evictTip
  split
  · split <;> simp [hpcc]
  · rfl

@[simp] theorem placeTip_touches {p : Nat} {v : PortState} (hpcc : Block.pcc ∈ bs) :
    Touches bs s (placeTip p v u) ↔ Touches bs s u := by
  unfold placeTip
  split <;> simp [hpcc]

@[simp] theorem dismount_touches {x : Arm} (hpcc : Block.pcc ∈ bs) : Touches bs s (dismount x u) ↔ Touches bs s u := by
  unfold dismount
  split <;> simp [hpcc]

@[simp] theorem mount_touches {x : Arm} {t : Nat} (hpcc : Block.pcc ∈ bs) :
    Touches bs s (mount x t u) ↔ Touches bs s u := by
  unfold mount
  split <;> simp [hpcc]

end

/-- The blocks that a request's owner may change: the RIU only where the station's state or the record may. -/
def ownBlocks : RequestCode → List Block
  | .stationMode => everyBlock
  | .stationReset => everyBlock
  | .tableActivate => everyBlock
  | _ => [.rqu, .tbs, .cen, .thu, .tcu, .pcc, .mgd, .evu]

theorem mem_ownBlocks (c : RequestCode) {b : Block} (hb : b ≠ .riu) : b ∈ ownBlocks c := by
  cases b with
  | riu => exact absurd rfl hb
  | _ => cases c <;> decide

theorem Owner.touches_ownBlocks {c : RequestCode} {own : State → Served} (ho : Owner c own) (s : State) :
    Touches (ownBlocks c) s (own s).state := by
  have hb : ∀ b ≠ .riu, b ∈ ownBlocks c := fun b hb => mem_ownBlocks c hb
  have hall := mem_everyBlock
  cases ho with
  | stationMode w => unfold ownStationMode; split_ifs <;> simp [modeReply, ownBlocks, hall]
  | stationReset => simp [ownStationReset, served, ownBlocks, hall]
  | statusRead a b c => unfold ownStatusRead; split <;> simp [refuse]
  | tableWrite | tableClear | tableCheck =>
    exact withKind_touches (fun k => afterChecks_touches (by simp [served, hb]))
  | tableActivate k =>
    refine withKind_touches (fun k => afterChecks_touches ?_)
    dsimp only
    split <;> simp [ownBlocks, hall]
  | tableRead k b o =>
    refine withKind_touches (fun k => ?_)
    dsimp only
    split_ifs <;> simp [refuse]
    split <;> simp
  | tipSet | tipRemove => exact afterChecks_touches (by simp [served, hb])
  | portSet p v t =>
    refine afterChecks_touches ?_
    split
    · simp [served, hb]
    · exact .refl _ _
  | armTipSet a t =>
    exact withArm_touches (fun x => afterChecks_touches (by simp [served, hb]))
  | triggerArm a => exact withArm_touches (fun x => afterChecks_touches (by simp [served, hb]))
  | triggerDisarm a =>
    refine withArm_touches (fun x => ?_)
    split <;> simp [served, refuse, hb]
  | featureOpen a => exact withArm_touches (fun x => afterChecks_touches (by simp [hb]))
  | featureClose a =>
    refine withArm_touches (fun x => ?_)
    split_ifs <;> simp [served, refuse, hb]
  | workpieceSet | workpieceClear => exact afterChecks_touches (by simp [served, hb])
  | thermalAdvance a => exact withArm_touches (fun x => afterChecks_touches (by simp [hb]))
  | zoneClaim a z => exact withArm_touches (fun x => afterChecks_touches (by simp [served, hb]))
  | zoneRelease a z =>
    refine withArm_touches (fun x => afterChecks_touches ?_)
    unfold releaseBy
    split_ifs <;> simp [served, refuse, hb]
  | holdRelease a r => exact withArm_touches (fun x => afterChecks_touches (by simp [releaseHold, hb]))
  | changeBegin a d p =>
    refine withArm_touches (fun x => afterChecks_touches ?_)
    simp only [served, beginSession]
    split_ifs <;> simp [hb]
  | changeAbort a =>
    refine withArm_touches (fun x => ?_)
    split <;> simp [served, abortStep, whenDo, hb]
    split_ifs <;> simp [hb]
  | eventPriority | reportLevel => exact afterChecks_touches (by simp [hb])

theorem Owner.touches {c : RequestCode} {own : State → Served} (ho : Owner c own) (s : State) :
    Touches everyBlock s (own s).state := (ho.touches_ownBlocks s).mono (fun b _ => mem_everyBlock b)

/-- No move changes the queue of the commands that wait. -/
theorem Move.pending {s t : State} (h : Move s t) : t.pending = s.pending := by
  suffices Touches everyBlock s t from this.pending
  have hb := mem_everyBlock
  cases h with
  | powerOn a b =>
    exact ⟨fun n => absurd (hb _) n, fun n => absurd (hb _) n, fun n => absurd (hb _) n, fun n => absurd (hb _) n,
      fun n => absurd (hb _) n, fun n => absurd (hb _) n, fun n => absurd (hb _) n, fun n => absurd (hb _) n,
      fun n => absurd (hb _) n, rfl⟩
  | serve ho => exact ho.touches s
  | _ => simp [hb]

/-- Settles O2: every command is a sequence of moves, and no move changes the queue. -/
theorem commandsKeepTheQueue : Obligations.CommandsKeepTheQueue := by
  unfold Obligations.CommandsKeepTheQueue
  intro c s
  obtain ⟨t, ht, hmoves⟩ := exec_moves c s
  exact ⟨t, ht, Moves.keeps (P := fun u => u.pending = s.pending) (fun hm hu => hm.pending.trans hu) hmoves rfl⟩

end Sys2Proof.Proofs
end

section
/-! The data of the block that few moves change: the sizes of its tables, the temperatures, the banks and the priorities. One
equation per function that leaves them as they are. -/
namespace Sys2Proof.Proofs

open Sys2Proof.Machine Sys2Proof.Laws

/-- The sizes of the tables of objects, the temperatures and channels, the banks, the report level and the priorities. -/
structure Data where
  reportLevel : Nat
  priorities  : List Nat
  tips        : Nat
  ports       : Nat
  zones       : Nat
  inside      : Arm → Nat
  channels    : List Channel
  aggregates  : List Aggregate
  applied     : Arm → AppliedSet
  tbs         : PerKind TableState
  inForce     : Arm → Option ArmInForce
  record      : Option Bank

/-- The data of a state. -/
def dataOf (s : State) : Data where
  reportLevel := s.evu.reportLevel
  priorities := s.evu.sources.map (·.priority)
  tips := s.pcc.tips.length
  ports := s.pcc.ports.length
  zones := s.mgd.zones.length
  inside := fun x => (s.mgdOf x).inside.length
  channels := s.thu.channels
  aggregates := s.thu.aggregates
  applied := fun x => (s.thuOf x).applied
  tbs := s.tbs
  inForce := fun x => (s.cenOf x).inForce
  record := s.riu.record

/-- A change of one arm's value that keeps a part of it keeps that part on both arms. -/
theorem modify_part {α β : Type} {g : α → β} {f : α → α} (h : ∀ a, g (f a) = g a) (p : PerArm α) (x y : Arm) :
    g ((p.modify x f).get y) = g (p.get y) := by
  cases x <;> cases y <;> simp [PerArm.modify, PerArm.get, h]

theorem map_modify_part {α β : Type} {g : α → β} {f : α → α} (h : ∀ a, g (f a) = g a) (l : List α) (n : Nat) :
    (l.modify n f).map g = l.map g := by
  apply List.ext_getElem (by simp)
  intro i _ _
  simp only [List.getElem_map, List.getElem_modify]
  split
  · exact h _
  · rfl

section
variable (s : State) (x y : Arm)

/-! ### The updates of the state -/

theorem dataOf_riu {v : Riu} (h : v.record = s.riu.record) : dataOf { s with riu := v } = dataOf s := by
  simp only [dataOf, h]
  rfl

@[simp] theorem dataOf_rqu (v : Rqu) : dataOf { s with rqu := v } = dataOf s := rfl

@[simp] theorem dataOf_tcu (v : Tcu) : dataOf { s with tcu := v } = dataOf s := rfl

@[simp] theorem dataOf_onCen {f : CenArm → CenArm} (h : ∀ c, (f c).inForce = c.inForce) :
    dataOf (s.onCen x f) = dataOf s := by
  have : (fun y => ((s.onCen x f).cenOf y).inForce) = fun y => (s.cenOf y).inForce :=
    funext fun y => modify_part h s.cen x y
  simp only [dataOf, this]
  rfl

@[simp] theorem dataOf_onThu {f : ThuArm → ThuArm} (h : ∀ t, (f t).applied = t.applied) :
    dataOf (s.onThu x f) = dataOf s := by
  have : (fun y => ((s.onThu x f).thuOf y).applied) = fun y => (s.thuOf y).applied :=
    funext fun y => modify_part h s.thu.arm x y
  simp only [dataOf, this]
  rfl

@[simp] theorem dataOf_onTcu (f : TcuArm → TcuArm) : dataOf (s.onTcu x f) = dataOf s := rfl

@[simp] theorem dataOf_onPcc (f : PccArm → PccArm) : dataOf (s.onPcc x f) = dataOf s := rfl

@[simp] theorem dataOf_onMgd {f : MgdArm → MgdArm} (h : ∀ g, (f g).inside.length = g.inside.length) :
    dataOf (s.onMgd x f) = dataOf s := by
  have : (fun y => ((s.onMgd x f).mgdOf y).inside.length) = fun y => (s.mgdOf y).inside.length :=
    funext fun y => modify_part (g := fun m => m.inside.length) h s.mgd.arm x y
  simp only [dataOf, this]
  rfl

@[simp] theorem dataOf_onTip (t : Nat) (f : Tip → Tip) : dataOf (onTip t f s) = dataOf s := by
  simp only [dataOf, onTip, List.length_modify]
  rfl

@[simp] theorem dataOf_setPort (p : Nat) (v : PortState) : dataOf (setPort p v s) = dataOf s := by
  simp only [dataOf, setPort, List.length_set]
  rfl

@[simp] theorem dataOf_setZone (z : Nat) (v : Zone) : dataOf (setZone z v s) = dataOf s := by
  simp only [dataOf, setZone, List.length_set]
  rfl

@[simp] theorem dataOf_post (src : EventSource) (d : Detail) : dataOf (post src d s) = dataOf s := by
  have : (post src d s).evu.sources.map (·.priority) = s.evu.sources.map (·.priority) :=
    map_modify_part (g := SourceState.priority) (f := postTo d) (fun _ => rfl) _ _
  simp only [dataOf, this]
  rfl

@[simp] theorem dataOf_clearAt (n : Nat) : dataOf (clearAt n s) = dataOf s := by
  have : (clearAt n s).evu.sources.map (·.priority) = s.evu.sources.map (·.priority) :=
    map_modify_part (g := SourceState.priority) (f := clearSource) (fun _ => rfl) _ _
  simp only [dataOf, this]
  rfl

@[simp] theorem dataOf_raise (c : Cause) : dataOf (raise x c s) = dataOf s := by simp [raise]

@[simp] theorem dataOf_raiseMasked (m : MaskBit) (c : Cause) : dataOf (raiseMasked x m c s) = dataOf s := by
  unfold raiseMasked
  split <;> simp

@[simp] theorem dataOf_whenDo {f : State → State} (h : ∀ u, dataOf (f u) = dataOf u) (c : Bool) :
    dataOf (whenDo c f s) = dataOf s := by
  unfold whenDo
  split
  · exact h s
  · rfl

@[simp] theorem dataOf_moveTip (t : Nat) (l : TipLocation) : dataOf (moveTip t l s) = dataOf s := dataOf_onTip s t _

@[simp] theorem dataOf_onSession (f : Session → Session) : dataOf (onSession x f s) = dataOf s := rfl

@[simp] theorem dataOf_setTrigger (t : Trigger) : dataOf (setTrigger x t s) = dataOf s := rfl

@[simp] theorem dataOf_onTrigger (f : Trigger → Trigger) : dataOf (onTrigger x f s) = dataOf s := rfl

@[simp] theorem dataOf_ageLatch : dataOf (ageLatch x s) = dataOf s := by
  unfold ageLatch
  split <;> rfl

@[simp] theorem dataOf_emptyHistory : dataOf (emptyHistory x s) = dataOf s := by
  unfold emptyHistory
  dsimp only
  split <;> simp

/-! ### Zones -/

@[simp] theorem dataOf_applyClaim (z : Nat) : dataOf (applyClaim x z s) = dataOf s := by
  unfold applyClaim
  split <;> simp

@[simp] theorem dataOf_enterStep : dataOf (enterStep x s) = dataOf s := rfl

@[simp] theorem dataOf_grantZone (z : Nat) : dataOf (grantZone x z s) = dataOf s := by
  unfold grantZone
  dsimp only
  split <;> simp

@[simp] theorem dataOf_releaseZone (announce : Bool) (z : Nat) : dataOf (releaseZone announce z s) = dataOf s := by
  unfold releaseZone
  dsimp only
  split
  · rfl
  · split_ifs <;> simp

@[simp] theorem dataOf_askRelease (z : Nat) : dataOf (askRelease x z s) = dataOf s := by
  unfold askRelease
  split
  · split_ifs <;> simp
  · rfl

@[simp] theorem dataOf_withdrawWait (z : Nat) : dataOf (withdrawWait x z s) = dataOf s := by
  unfold withdrawWait
  split
  · split_ifs <;> simp
  · rfl

@[simp] theorem dataOf_deferredRelease (z : Nat) : dataOf (deferredRelease z s) = dataOf s := by
  unfold deferredRelease
  split <;> simp

/-! ### Sessions -/

@[simp] theorem dataOf_clearSession : dataOf (clearSession x s) = dataOf s := rfl

@[simp] theorem dataOf_completeSession : dataOf (completeSession x s) = dataOf s := by simp [completeSession]

@[simp] theorem dataOf_enterFault (c : FaultCause) (d : Detail) : dataOf (enterFault x c d s) = dataOf s := by
  unfold enterFault
  dsimp only
  split <;> simp

@[simp] theorem dataOf_cancelWaiting : dataOf (cancelWaiting x s) = dataOf s := by simp [cancelWaiting]

@[simp] theorem dataOf_tickStep : dataOf (tickStep x s) = dataOf s := by
  unfold tickStep
  split <;> simp

@[simp] theorem dataOf_dropComplete : dataOf (dropComplete x s) = dataOf s := by
  unfold dropComplete dropDone
  dsimp only
  split
  · split
    · split <;> simp
    · rfl
  · rfl

@[simp] theorem dataOf_losesTip : dataOf (losesTip x s) = dataOf s := by simp [losesTip]

@[simp] theorem dataOf_postHead : dataOf (postHead x s) = dataOf s := dataOf_post _ _ _

@[simp] theorem dataOf_cancelByMismatch : dataOf (cancelByMismatch x s) = dataOf s := by simp [cancelByMismatch]

@[simp] theorem dataOf_markHead : dataOf (markHead x s) = dataOf s := by
  unfold markHead
  split <;> simp

@[simp] theorem dataOf_disturb (m : Nat) (lost headLast : Bool) : dataOf (disturb x m lost headLast s) = dataOf s := by
  unfold disturb
  cases headLast <;> simp

@[simp] theorem dataOf_unverifyFormer (l : TipLocation) (p : Nat) : dataOf (unverifyFormer l p s) = dataOf s := by
  unfold unverifyFormer
  split
  · split <;> simp
  · rfl

@[simp] theorem dataOf_pickComplete (headLast : Bool) : dataOf (pickComplete x headLast s) = dataOf s := by
  unfold pickComplete pickDone
  dsimp only
  split
  · split
    · split <;> simp
    · rfl
  · rfl

/-! ### Readings -/

@[simp] theorem dataOf_supervise (h : HeadState) (code : BitVec 16) : dataOf (supervise x h code s) = dataOf s := by
  simp [supervise]

@[simp] theorem dataOf_readStatus (input : Memory 8) : dataOf (readStatus x input s) = dataOf s := by
  unfold readStatus
  split
  · rfl
  · dsimp only
    split <;> simp

@[simp] theorem dataOf_monitorPort (r : BitVec 12) (p : Nat) : dataOf (monitorPort r p s) = dataOf s := by
  unfold monitorPort
  split
  · rfl
  · split <;> simp

@[simp] theorem dataOf_takeRack (input : Memory 8) (spared : List Nat) (t : RackStep) :
    dataOf (takeRack input spared t s) = dataOf s := by
  unfold takeRack
  split
  · rfl
  · cases t with
    | reading => rfl
    | port p => dsimp only; split <;> simp

/-! ### Touches -/

@[simp] theorem dataOf_numericOnset (sat beyond : BitVec 3) : dataOf (numericOnset x sat beyond s) = dataOf s := by
  simp [numericOnset]

@[simp] theorem dataOf_softLimits (b : Bank) (g : Vec3) : dataOf (softLimits x b g s) = dataOf s := by
  simp [softLimits]

@[simp] theorem dataOf_passLimits (r : Chain) : dataOf (passLimits x r s) = dataOf s := by
  unfold passLimits
  split <;> simp

@[simp] theorem dataOf_losePoint (seq : BitVec 16) (why : LostReason) : dataOf (losePoint x seq why s) = dataOf s := by
  simp [losePoint]

@[simp] theorem dataOf_joinQueue (p : Point) : dataOf (joinQueue p s) = dataOf s := by
  unfold joinQueue
  split <;> simp

@[simp] theorem dataOf_endTouch (l : Latch) : dataOf (endTouch x l s) = dataOf s := rfl

@[simp] theorem dataOf_finishTouch (t : Touch) : dataOf (finishTouch x t s) = dataOf s := by simp [finishTouch]

@[simp] theorem dataOf_resolveTouch : dataOf (resolveTouch x s) = dataOf s := by
  unfold resolveTouch
  split <;> simp

@[simp] theorem dataOf_lateTouch : dataOf (lateTouch x s) = dataOf s := by
  unfold lateTouch
  split
  · split <;> simp
  · rfl

@[simp] theorem dataOf_rearmExpiry : dataOf (rearmExpiry x s) = dataOf s := by
  unfold rearmExpiry
  split <;> simp

@[simp] theorem dataOf_tickRearm : dataOf (tickRearm x s) = dataOf s := by
  unfold tickRearm
  split <;> simp

@[simp] theorem dataOf_takeEdge : dataOf (takeEdge x s) = dataOf s := by
  unfold takeEdge
  split <;> simp

@[simp] theorem dataOf_resolutionStep (c : Option (BitVec 64)) : dataOf (resolutionStep x c s) = dataOf s := by
  unfold resolutionStep
  split
  · split <;> simp
  · simp

@[simp] theorem dataOf_correctArm (input : Memory 8) : dataOf (correctArm x input s).state = dataOf s := by
  unfold correctArm
  split
  · split
    · simp
    · split <;> simp [correctInvalid, correctValid]
  · rfl

@[simp] theorem dataOf_writeReturn (o : Nat) (bs : List Byte) : dataOf (writeReturn o bs s) = dataOf s := rfl

@[simp] theorem dataOf_writePoints (w i : Nat) (ps : List Point) : dataOf (writePoints w i ps s) = dataOf s := by
  induction ps generalizing i s with
  | nil => rfl
  | cons p ps ih => exact (ih _ _).trans rfl

@[simp] theorem dataOf_drainPoints : dataOf (drainPoints s) = dataOf s := by
  unfold drainPoints
  split
  · rfl
  · exact dataOf_writePoints _ _ _ _

@[simp] theorem dataOf_selectEvent : dataOf (selectEvent s).2 = dataOf s := by
  unfold selectEvent
  split
  · rfl
  · exact dataOf_clearAt _ _

@[simp] theorem dataOf_clearRack (p : Nat) : dataOf (clearRack p s) = dataOf s := by
  unfold clearRack
  split <;> simp

@[simp] theorem dataOf_placeTip (p : Nat) (v : PortState) : dataOf (placeTip p v s) = dataOf s := by
  unfold placeTip
  split <;> simp

@[simp] theorem dataOf_evictTip (p : Nat) (v : PortState) : dataOf (evictTip p v s) = dataOf s := by
  unfold evictTip
  split
  · split <;> simp
  · rfl

@[simp] theorem dataOf_dismount : dataOf (dismount x s) = dataOf s := by
  unfold dismount
  split <;> simp

@[simp] theorem dataOf_mount (t : Nat) : dataOf (mount x t s) = dataOf s := by
  unfold mount
  split <;> simp

@[simp] theorem dataOf_addMode : dataOf (addMode s) = dataOf s := by simp [addMode]

@[simp] theorem dataOf_takeAddress (a : Byte) : dataOf (takeAddress a s) = dataOf s := by
  unfold takeAddress
  exact (dataOf_addMode _).trans (dataOf_riu s rfl)

@[simp] theorem dataOf_tickCountdown : dataOf (tickCountdown x s) = dataOf s := by simp [tickCountdown]

@[simp] theorem dataOf_reloadCountdown : dataOf (reloadCountdown x s) = dataOf s := by simp [reloadCountdown]

@[simp] theorem dataOf_enterRun : dataOf (enterRun s) = dataOf s := by
  unfold enterRun startCountdown
  split_ifs <;> simp [dataOf_riu]

@[simp] theorem dataOf_leaveRun : dataOf (leaveRun x s) = dataOf s := by
  unfold leaveRun
  dsimp only
  split <;> simp

@[simp] theorem dataOf_enterConfig : dataOf (enterConfig s) = dataOf s := by simp [enterConfig, dataOf_riu]

end

/-! ### Owners -/

theorem withArm_data {v : Byte} {f : Arm → State → Served} {s : State} (h : ∀ x, dataOf (f x s).state = dataOf s) :
    dataOf (withArm v f s).state = dataOf s := withArm_keeps (Q := fun u => dataOf u = dataOf s) rfl h

theorem afterChecks_data {checks : List (Bool × Result)} {f : State → Served} {s : State}
    (h : dataOf (f s).state = dataOf s) : dataOf (afterChecks checks f s).state = dataOf s :=
  afterChecks_keeps (Q := fun u => dataOf u = dataOf s) rfl (fun _ => h)

/-- The requests that change a table bank, a temperature, a priority or the report level, or take the warm reset. -/
def writesData : RequestCode → Bool
  | .stationReset => true
  | .tableWrite => true
  | .tableClear => true
  | .tableCheck => true
  | .tableActivate => true
  | .featureClose => true
  | .thermalAdvance => true
  | .eventPriority => true
  | .reportLevel => true
  | _ => false

theorem Owner.keepsData {c : RequestCode} {own : State → Served} (ho : Owner c own) (hc : writesData c = false)
    (s : State) : dataOf (own s).state = dataOf s := by
  cases ho with
  | stationMode w => unfold ownStationMode; split_ifs <;> simp [modeReply]
  | statusRead a b c => unfold ownStatusRead; split <;> rfl
  | tableRead k b o =>
    unfold ownTableRead withKind
    split
    · rfl
    · dsimp only
      split_ifs <;> try rfl
      split <;> rfl
  | tipSet | tipRemove => exact afterChecks_data (by simp [served])
  | portSet p v t =>
    refine afterChecks_data ?_
    split
    · simp [served]
    · rfl
  | armTipSet a t =>
    exact withArm_data (fun x => afterChecks_data (by simp [served]))
  | triggerArm a => exact withArm_data (fun x => afterChecks_data (by simp [served]))
  | triggerDisarm a =>
    refine withArm_data (fun x => ?_)
    split <;> simp [served, refuse]
  | featureOpen a => exact withArm_data (fun x => afterChecks_data (by simp))
  | workpieceSet | workpieceClear => exact afterChecks_data (by simp [served])
  | zoneClaim a z => exact withArm_data (fun x => afterChecks_data (by simp [served]))
  | zoneRelease a z =>
    refine withArm_data (fun x => afterChecks_data ?_)
    unfold releaseBy
    split_ifs <;> simp [served, refuse]
  | holdRelease a r => exact withArm_data (fun x => afterChecks_data (by simp [releaseHold]))
  | changeBegin a d p =>
    refine withArm_data (fun x => afterChecks_data ?_)
    simp only [served, beginSession]
    split_ifs <;> simp
  | changeAbort a =>
    refine withArm_data (fun x => ?_)
    split <;> simp [served, abortStep]
  | stationReset | tableWrite | tableClear | tableCheck | tableActivate | featureClose | thermalAdvance | eventPriority
      | reportLevel => cases hc

end Sys2Proof.Proofs
end

section
/-! The counts of the block (R24, R66, R141, R149): the queue, the two counters of the Ring Interface Unit, and the arms'
histories stay within their limits. -/
namespace Sys2Proof.Proofs

open Sys2Proof.Machine Sys2Proof.Laws

/-- The queue, the two counts and the histories within their limits. -/
structure Counted (s : State) : Prop where
  queue   : s.tcu.queue.length ≤ 32
  missed  : s.riu.missed ≤ 65535
  turned  : s.riu.turned ≤ 65535
  history : ∀ x, (s.cenOf x).history.length ≤ 4

/-- The blocks that hold no count. -/
def uncounted : List Block := [.rqu, .tbs, .thu, .pcc, .mgd, .evu]

theorem counted_of_touches {s t : State} (h : Touches uncounted s t) : Counted t ↔ Counted s := by
  have hriu : t.riu = s.riu := h.riu (by decide)
  have htcu : t.tcu = s.tcu := h.tcu (by decide)
  have hcen : t.cen = s.cen := h.cen (by decide)
  constructor <;> rintro ⟨hq, hm, ht, hh⟩ <;> constructor <;> simp_all [State.cenOf]

section
variable (s : State) (x : Arm)

/-! ### Functions that leave every count as it is -/

theorem counted_riu {v : Riu} (hm : v.missed = s.riu.missed) (ht : v.turned = s.riu.turned) :
    Counted { s with riu := v } ↔ Counted s := by
  constructor <;> rintro ⟨hq, h1, h2, hh⟩ <;> constructor <;> simp_all [State.cenOf]

theorem counted_tcu {v : Tcu} (h : v.queue = s.tcu.queue) : Counted { s with tcu := v } ↔ Counted s := by
  constructor <;> rintro ⟨hq, h1, h2, hh⟩ <;> constructor <;> simp_all [State.cenOf]

@[simp] theorem counted_onCen {f : CenArm → CenArm} (h : ∀ c, (f c).history = c.history) :
    Counted (s.onCen x f) ↔ Counted s := by
  have hsame (y : Arm) : ((s.onCen x f).cenOf y).history = (s.cenOf y).history := modify_part h s.cen x y
  constructor <;> rintro ⟨hq, h1, h2, hh⟩ <;> constructor <;> simp_all

@[simp] theorem counted_onTcu (f : TcuArm → TcuArm) : Counted (s.onTcu x f) ↔ Counted s := counted_tcu s rfl

@[simp] theorem counted_onThu (f : ThuArm → ThuArm) : Counted (s.onThu x f) ↔ Counted s :=
  counted_of_touches (by simp [uncounted])

@[simp] theorem counted_onPcc (f : PccArm → PccArm) : Counted (s.onPcc x f) ↔ Counted s :=
  counted_of_touches (by simp [uncounted])

@[simp] theorem counted_onMgd (f : MgdArm → MgdArm) : Counted (s.onMgd x f) ↔ Counted s :=
  counted_of_touches (by simp [uncounted])

@[simp] theorem counted_onTbs (k : TableKind) (f : TableState → TableState) : Counted (s.onTbs k f) ↔ Counted s :=
  counted_of_touches (by simp [uncounted])

@[simp] theorem counted_post (src : EventSource) (d : Detail) : Counted (post src d s) ↔ Counted s :=
  counted_of_touches (by simp [uncounted])

@[simp] theorem counted_raise (c : Cause) : Counted (raise x c s) ↔ Counted s := counted_of_touches (by simp [uncounted])

@[simp] theorem counted_raiseMasked (m : MaskBit) (c : Cause) : Counted (raiseMasked x m c s) ↔ Counted s :=
  counted_of_touches (by simp [uncounted])

@[simp] theorem counted_whenDo {f : State → State} (h : ∀ u, Counted (f u) ↔ Counted u) (c : Bool) :
    Counted (whenDo c f s) ↔ Counted s := by
  unfold whenDo
  split
  · exact h s
  · rfl

@[simp] theorem counted_onTrigger (f : Trigger → Trigger) : Counted (onTrigger x f s) ↔ Counted s := counted_onTcu s x _

@[simp] theorem counted_setTrigger (t : Trigger) : Counted (setTrigger x t s) ↔ Counted s := counted_onTcu s x _

@[simp] theorem counted_ageLatch : Counted (ageLatch x s) ↔ Counted s := by
  unfold ageLatch
  split <;> simp

@[simp] theorem counted_askRelease (z : Nat) : Counted (askRelease x z s) ↔ Counted s :=
  counted_of_touches (by simp [uncounted])

@[simp] theorem counted_withdrawWait (z : Nat) : Counted (withdrawWait x z s) ↔ Counted s :=
  counted_of_touches (by simp [uncounted])

@[simp] theorem counted_moveTip (t : Nat) (l : TipLocation) : Counted (moveTip t l s) ↔ Counted s :=
  counted_of_touches (by simp [uncounted])

@[simp] theorem counted_setPort (p : Nat) (v : PortState) : Counted (setPort p v s) ↔ Counted s :=
  counted_of_touches (by simp [uncounted])

@[simp] theorem counted_clearSession : Counted (clearSession x s) ↔ Counted s := counted_onPcc s x _

@[simp] theorem counted_onSession (f : Session → Session) : Counted (onSession x f s) ↔ Counted s := counted_onPcc s x _

@[simp] theorem counted_completeSession : Counted (completeSession x s) ↔ Counted s := by simp [completeSession]

@[simp] theorem counted_enterFault (c : FaultCause) (d : Detail) : Counted (enterFault x c d s) ↔ Counted s :=
  counted_of_touches (by simp [uncounted])

@[simp] theorem counted_cancelWaiting : Counted (cancelWaiting x s) ↔ Counted s := by simp [cancelWaiting]

@[simp] theorem counted_unverifyFormer (l : TipLocation) (p : Nat) : Counted (unverifyFormer l p s) ↔ Counted s :=
  counted_of_touches (by simp [uncounted])

@[simp] theorem counted_numericOnset (sat beyond : BitVec 3) : Counted (numericOnset x sat beyond s) ↔ Counted s := by
  simp [numericOnset]

@[simp] theorem counted_passLimits (r : Chain) : Counted (passLimits x r s) ↔ Counted s := by
  unfold passLimits
  split <;> simp [softLimits]

@[simp] theorem counted_losePoint (seq : BitVec 16) (why : LostReason) : Counted (losePoint x seq why s) ↔ Counted s :=
  counted_of_touches (by simp [uncounted])

@[simp] theorem counted_resolutionStep (c : Option (BitVec 64)) : Counted (resolutionStep x c s) ↔ Counted s := by
  unfold resolutionStep
  split
  · split <;> simp
  · simp

@[simp] theorem counted_writeReturn (o : Nat) (bs : List Byte) : Counted (writeReturn o bs s) ↔ Counted s :=
  counted_riu s rfl rfl

@[simp] theorem counted_writePoints (w i : Nat) (ps : List Point) : Counted (writePoints w i ps s) ↔ Counted s := by
  induction ps generalizing i s with
  | nil => rfl
  | cons p ps ih => exact (ih _ _).trans (counted_writeReturn _ _ _)

@[simp] theorem counted_reloadCountdown : Counted (reloadCountdown x s) ↔ Counted s := counted_onThu s x _

@[simp] theorem counted_enterRun : Counted (enterRun s) ↔ Counted s := by
  unfold enterRun startCountdown
  split_ifs <;> simp [counted_riu]

@[simp] theorem counted_enterConfig : Counted (enterConfig s) ↔ Counted s := by
  unfold enterConfig leaveRun addMode
  dsimp only
  split_ifs <;> simp [counted_riu]

@[simp] theorem counted_takeDeferred : Counted (takeDeferred x s) ↔ Counted s := counted_of_touches (by simp [uncounted])

/-! ### Functions that change a count -/

variable {s}

theorem onCen_counted {f : CenArm → CenArm} (hf : ∀ c : CenArm, c.history.length ≤ 4 → (f c).history.length ≤ 4)
    (h : Counted s) : Counted (s.onCen x f) where
  queue := h.queue
  missed := h.missed
  turned := h.turned
  history := fun y => by
    by_cases hy : y = x
    · subst hy; simpa using hf _ (h.history y)
    · simpa [onCen_cenOf_other _ _ hy] using h.history y

theorem emptyHistory_counted (h : Counted s) : Counted (emptyHistory x s) := by
  have : Counted (s.onCen x (fun c => { c with history := [] })) := onCen_counted x (fun _ _ => by simp) h
  unfold emptyHistory
  dsimp only
  split
  · exact (counted_ageLatch _ x).2 this
  · exact this

theorem dropComplete_counted (h : Counted s) : Counted (dropComplete x s) := by
  unfold dropComplete dropDone
  dsimp only
  split
  · split
    · next t p _ _ =>
      have hplaced : Counted (emptyHistory x (setPort p (.holds t) (moveTip t (.port p) s))) :=
        emptyHistory_counted x (by simpa using h)
      split <;> simpa using hplaced
    · exact h
  · exact h

theorem disturb_counted (m : Nat) (lost headLast : Bool) (h : Counted s) : Counted (disturb x m lost headLast s) := by
  have hloses : Counted (whenDo lost (losesTip x) s) := by
    cases lost
    · exact h
    · simpa [whenDo, losesTip] using emptyHistory_counted x h
  have hmark (u : State) : Counted (markHead x u) ↔ Counted u := by
    unfold markHead
    split <;> simp
  unfold disturb
  cases headLast <;> simpa [hmark, cancelByMismatch, postHead] using hloses

theorem pickComplete_counted (headLast : Bool) (h : Counted s) : Counted (pickComplete x headLast s) := by
  unfold pickComplete pickDone
  dsimp only
  split
  · split
    · split
      · exact (counted_completeSession _ x).2 (emptyHistory_counted x (by simpa using h))
      · simpa using h
      · exact (counted_enterFault _ x _ _).2
          (disturb_counted _ _ _ _ (emptyHistory_counted x (by simpa using h)))
    · exact h
  · exact h

theorem joinQueue_counted (p : Point) (h : Counted s) : Counted (joinQueue p s) := by
  unfold joinQueue
  split
  · next hroom =>
    have hlength : s.tcu.queue.length < 32 := hroom
    exact ⟨by simpa using hlength, h.missed, h.turned, h.history⟩
  · simpa using h

theorem finishTouch_counted (t : Touch) (h : Counted s) : Counted (finishTouch x t s) := by
  unfold finishTouch endTouch
  simpa using joinQueue_counted _ (by simpa using h)

theorem resolveTouch_counted (h : Counted s) : Counted (resolveTouch x s) := by
  unfold resolveTouch
  split
  · exact finishTouch_counted x _ h
  · exact h

theorem lateTouch_counted (h : Counted s) : Counted (lateTouch x s) := by
  unfold lateTouch
  split
  · split
    · exact finishTouch_counted x _ h
    · simpa [endTouch] using h
  · exact h

theorem drainPoints_counted (h : Counted s) : Counted (drainPoints s) := by
  unfold drainPoints
  split
  · exact h
  · next w _ =>
    obtain ⟨-, hmissed, hturned, hhistory⟩ :=
      (counted_writePoints s w 0 (s.tcu.queue.take (stationField (·.pointSlots) s))).2 h
    exact ⟨((List.drop_sublist _ _).length_le).trans h.queue, hmissed, hturned, hhistory⟩

theorem length_appendEntry_le {es : List HistoryEntry} (e : HistoryEntry) (h : es.length ≤ 4) :
    (appendEntry es e).1.length ≤ 4 := by
  have hfilter : (es.filter (fun o => decide (o.generation = e.generation))).length ≤ es.length := List.length_filter_le ..
  unfold appendEntry
  dsimp only
  split
  · split
    · simp [Config.historyCapacity]
      omega
    · exact hfilter.trans h
  · simp

theorem correctArm_counted (input : Memory 8) (h : Counted s) : Counted (correctArm x input s).state := by
  unfold correctArm
  split
  · split
    · simpa using h
    · split
      · simpa [correctInvalid] using h
      · simp only [correctValid, counted_resolutionStep]
        refine ⟨h.queue, h.missed, h.turned, fun y => ?_⟩
        by_cases hy : y = x
        · subst hy; simpa using length_appendEntry_le _ (h.history y)
        · simpa [onCen_cenOf_other _ _ hy] using h.history y
  · exact h

theorem interruptSession_counted (h : Counted s) : Counted (interruptSession x s) :=
  (counted_of_touches (by simp [uncounted])).2 h

theorem warmReset_counted (h : Counted s) : Counted (warmReset s) := by
  unfold warmReset addMode
  simp only [counted_raise]
  obtain ⟨-, -, hturned, -⟩ := interruptSession_counted .b (interruptSession_counted .a h)
  exact ⟨by simp [Tcu.reset], by simp, hturned, fun x => by simp [State.cenOf, warmCen, CenArm.reset]⟩

theorem activate_counted (k : TableKind) (h : Counted s) : Counted (activate k s) := by
  unfold activate activationEffect
  simp only [counted_post]
  have hswap : Counted (s.onTbs k swapBanks) := by simpa using h
  cases k with
  | armMap x => exact emptyHistory_counted x (by simpa using hswap)
  | stationRecord =>
    dsimp only
    split
    · exact ⟨hswap.queue, hswap.missed, hswap.turned, hswap.history⟩
    · exact hswap
  | slotMap => exact hswap
  | channelTable | zoneTable => exact ⟨hswap.queue, hswap.missed, hswap.turned, hswap.history⟩

end

/-! ### Owners and moves -/

theorem withArm_counted {v : Byte} {f : Arm → State → Served} {s : State} (hs : Counted s)
    (h : ∀ x, Counted (f x s).state) : Counted (withArm v f s).state := withArm_keeps hs h

theorem withKind_counted {v : Byte} {f : TableKind → State → Served} {s : State} (hs : Counted s)
    (h : ∀ k, Counted (f k s).state) : Counted (withKind v f s).state := withKind_keeps hs h

theorem afterChecks_counted {checks : List (Bool × Result)} {f : State → Served} {s : State} (hs : Counted s)
    (h : Counted (f s).state) : Counted (afterChecks checks f s).state := afterChecks_keeps hs (fun _ => h)

theorem Owner.counted {c : RequestCode} {own : State → Served} (ho : Owner c own) {s : State} (h : Counted s) :
    Counted (own s).state := by
  cases ho with
  | stationMode w => unfold ownStationMode; split_ifs <;> simpa [modeReply] using h
  | stationReset => exact warmReset_counted h
  | statusRead a b c => unfold ownStatusRead; split <;> exact h
  | tableWrite | tableClear | tableCheck =>
    exact withKind_counted h (fun k => afterChecks_counted h (by simpa [served] using h))
  | tableActivate k =>
    refine withKind_counted h (fun k => afterChecks_counted h ?_)
    dsimp only
    split
    · simpa [failCross] using h
    · exact activate_counted k h
  | tableRead k b o =>
    refine withKind_counted h (fun k => ?_)
    dsimp only
    split_ifs <;> try exact h
    split <;> exact h
  | tipSet | tipRemove | eventPriority | reportLevel =>
    exact afterChecks_counted h ((counted_of_touches (by simp [uncounted, served])).2 h)
  | portSet p v t =>
    refine afterChecks_counted h ?_
    split
    · exact (counted_of_touches (by simp [uncounted, served])).2 h
    · exact h
  | armTipSet a t =>
    exact withArm_counted h (fun x => afterChecks_counted h
      (emptyHistory_counted x ((counted_of_touches (by simp [uncounted])).2 h)))
  | triggerArm a => exact withArm_counted h (fun x => afterChecks_counted h (by simpa [served] using h))
  | triggerDisarm a =>
    refine withArm_counted h (fun x => ?_)
    split <;> simpa [served, refuse] using h
  | featureOpen a => exact withArm_counted h (fun x => afterChecks_counted h (by simpa using h))
  | featureClose a =>
    refine withArm_counted h (fun x => ?_)
    split_ifs <;> simpa [served, refuse] using h
  | workpieceSet | workpieceClear => exact afterChecks_counted h ⟨h.queue, h.missed, h.turned, h.history⟩
  | thermalAdvance a =>
    exact withArm_counted h (fun x => afterChecks_counted h ((counted_of_touches (by simp [uncounted])).2 h))
  | zoneClaim a z =>
    exact withArm_counted h (fun x => afterChecks_counted h ((counted_of_touches (by simp [uncounted, served])).2 h))
  | zoneRelease a z =>
    refine withArm_counted h (fun x => afterChecks_counted h ?_)
    unfold releaseBy
    split_ifs <;> simpa [served, refuse] using h
  | holdRelease a r => exact withArm_counted h (fun x => afterChecks_counted h (by simpa [releaseHold] using h))
  | changeBegin a d p =>
    refine withArm_counted h (fun x => afterChecks_counted h ?_)
    have hclaim (u : State) : Counted (applyClaim x 0 u) ↔ Counted u := counted_of_touches (by simp [uncounted])
    simp only [served, beginSession, enterStep]
    split_ifs <;> simpa [hclaim] using h
  | changeAbort a =>
    refine withArm_counted h (fun x => ?_)
    split <;> simpa [served, abortStep] using h

theorem Move.counted {s t : State} (hm : Move s t) (h : Counted s) : Counted t := by
  cases hm with
  | line v hv => exact (counted_riu s hv.missed hv.turned).2 h
  | missed n hn => exact ⟨h.queue, hn, h.turned, h.history⟩
  | turned => exact ⟨h.queue, h.missed, min_le_left _ _, h.history⟩
  | ringBegin => simpa [counted_riu] using h
  | record | ringEnd | drainMark => exact ⟨h.queue, h.missed, h.turned, h.history⟩
  | touchMark | changeMark | numeric | limits => simpa using h
  | rearm | tickRearm | edge =>
    simp only [rearmExpiry, Machine.tickRearm, takeEdge]
    split <;> simpa using h
  | drain => exact drainPoints_counted h
  | resolve x => exact resolveTouch_counted x h
  | late x => exact lateTouch_counted x h
  | drop x => exact dropComplete_counted x h
  | pick x l => exact pickComplete_counted x l h
  | refreshMap x => exact onCen_counted x (fun _ hc => hc) h
  | correct x input => exact correctArm_counted x input h
  | address a hs => simpa [takeAddress, addMode, counted_riu] using h
  | powerOn a b => 
    exact ⟨by simp [Machine.powerOn, State.reset, Tcu.reset], by simp [Machine.powerOn, Riu.reset],
      by simp [Machine.powerOn, Riu.reset], fun x => by cases x <;> exact Nat.zero_le 4⟩
  | serve ho => exact ho.counted h
  | _ => exact (counted_of_touches (by simp [uncounted])).2 h

end Sys2Proof.Proofs
end

section
/-! The moves that change the data of the block: what each makes of it. -/
namespace Sys2Proof.Proofs

open Sys2Proof.Machine Sys2Proof.Laws

section
variable (s : State) (x : Arm)

theorem funext_modify {α β : Type} (p : PerArm α) (f : α → α) (g : α → β) :
    (fun y => g ((p.modify x f).get y)) = Function.update (fun y => g (p.get y)) x (g (f (p.get x))) := by
  funext y
  by_cases h : y = x
  · subst h; simp
  · simp [get_modify_other _ _ h, h]

/-! ### Banks -/

theorem dataOf_refreshRecord :
    dataOf (refreshRecord s) = { dataOf s with record := (s.tbsOf .stationRecord).active } := rfl

theorem dataOf_refreshMap :
    dataOf (refreshMap x s) = { dataOf s with
      inForce := Function.update (dataOf s).inForce x
        ((s.tbsOf (.armMap x)).active.map (fun b => ⟨b, (s.tbsOf (.armMap x)).generation⟩)) } := by
  unfold refreshMap State.onCen
  simp only [dataOf, State.cenOf]
  rw [funext_modify x s.cen _ (·.inForce)]
  rfl

theorem dataOf_onTbs (k : TableKind) (f : TableState → TableState) :
    dataOf (s.onTbs k f) = { dataOf s with tbs := s.tbs.modify k f } := rfl

theorem dataOf_tbs_all (f : TableState → TableState) :
    dataOf { s with tbs := s.tbs.all f } = { dataOf s with tbs := s.tbs.all f } := rfl

theorem dataOf_checkComplete (k : TableKind) :
    dataOf (checkComplete k s) = dataOf s ∨ ∃ e, (s.tbsOf k).state = .checking e 0 false ∧
      dataOf (checkComplete k s) = { dataOf s with tbs := s.tbs.modify k (fun t => { t with
        state := if checkBank k (s.tbsOf k).staging e s = .passed then .passed else .failed,
        lastResult := some (checkBank k (s.tbsOf k).staging e s) }) } := by
  unfold checkComplete
  dsimp only
  split
  · next e he => exact .inr ⟨e, he, (dataOf_post _ _ _).trans (dataOf_onTbs s k _)⟩
  · exact .inl rfl

theorem dataOf_failCross (k : TableKind) (off : Nat) :
    dataOf (failCross k off s) = { dataOf s with tbs := s.tbs.modify k (fun t => { t with
      state := .failed, lastResult := some (.failedContent off) }) } :=
  (dataOf_post _ _ _).trans (dataOf_onTbs s k _)

/-- R133: an activation swaps the banks and may make both arms' inside records unknown; no other data change. -/
theorem dataOf_activate (k : TableKind) :
    dataOf (activate k s) = { dataOf s with
      tbs := s.tbs.modify k swapBanks,
      inside := if k = .zoneTable then fun _ => 8 else (dataOf s).inside } := by
  unfold activate activationEffect
  rw [dataOf_post]
  cases k with
  | armMap x => simp [dataOf_onTbs]
  | zoneTable =>
    have hinside (y : Arm) : ((s.mgd.arm.both (fun g => { g with inside := List.replicate 8 .unknown })).get y).inside.length
        = 8 := by simp
    simp only [dataOf, State.mgdOf, State.onTbs, hinside]
    rfl
  | stationRecord =>
    dsimp only
    split
    · exact (dataOf_riu _ rfl).trans rfl
    · rfl
  | slotMap | channelTable => rfl

/-! ### Temperatures and channels -/

theorem dataOf_advance :
    dataOf (advance x s)
      = { dataOf s with applied := Function.update (dataOf s).applied x (advancedSet s x) } := by
  unfold advance State.onThu
  simp only [dataOf, State.thuOf]
  rw [funext_modify x s.thu.arm _ (·.applied)]
  rfl

theorem dataOf_autoAdvance :
    dataOf (autoAdvance x s) = dataOf s ∨ dataOf (autoAdvance x s) = dataOf (advance x s) := by
  unfold autoAdvance
  split
  · split
    · exact .inl (by simp)
    · exact .inr (by simp)
  · exact .inl rfl

theorem dataOf_takeDeferred :
    dataOf (takeDeferred x s) = dataOf s ∨ dataOf (takeDeferred x s) = dataOf (advance x s) := by
  unfold takeDeferred
  dsimp only
  split
  · exact .inr (by split <;> simp)
  · exact .inl rfl

theorem dataOf_staleOnset (a : Nat) : dataOf (staleOnset a s) = dataOf s := by simp [staleOnset]

theorem dataOf_aggregateRole (table : Bank) (a : Nat) :
    dataOf (aggregateRole table a s) = { dataOf s with
      aggregates := s.thu.aggregates.set a (nextAggregate (contributions table s a) (aggregateOf s a)) } := by
  rw [aggregateRole_eq, dataOf_whenDo _ (fun u => dataOf_staleOnset u a)]
  rfl

theorem dataOf_restartChannels :
    dataOf (restartChannels s) = dataOf s
      ∨ dataOf (restartChannels s) = { dataOf s with channels := List.replicate 24 Channel.reset } := by
  unfold restartChannels
  split
  · exact .inr rfl
  · exact .inl rfl

theorem dataOf_intakeChannel (table : Bank) (sync : BitVec 64) (input : Memory 8) (i : Nat) :
    dataOf (intakeChannel table sync input i s) = dataOf s ∨ ∃ r m,
      dataOf (intakeChannel table sync input i s)
        = { dataOf s with channels := s.thu.channels.set i (updateChannel r sync m (channelOf s i)).1 } := by
  unfold intakeChannel
  dsimp only
  split
  · next m _ _ =>
    refine .inr ⟨channelRecord table i, m, ?_⟩
    unfold postChannel
    split
    · exact dataOf_post _ _ _
    · exact dataOf_post _ _ _
    · rfl
  · exact .inl rfl

/-! ### The Motion Guard, priorities and resets -/

theorem dataOf_removeCreep : dataOf (removeCreep x s) = dataOf s := by simp [removeCreep]

theorem dataOf_intrusionOnset (onsets : BitVec 8) : dataOf (intrusionOnset x onsets s) = dataOf s := by
  unfold intrusionOnset
  dsimp only
  split_ifs <;> simp

theorem dataOf_latches (v : BitVec 8) : dataOf (s.onMgd x (fun g => { g with latches := v })) = dataOf s :=
  dataOf_onMgd s x (fun _ => rfl)

theorem dataOf_inside (v : List Inside) :
    dataOf (s.onMgd x (fun g => { g with inside := v }))
      = { dataOf s with inside := Function.update (dataOf s).inside x v.length } := by
  unfold State.onMgd
  simp only [dataOf, State.mgdOf]
  rw [funext_modify x s.mgd.arm _ (·.inside.length)]
  rfl

theorem dataOf_monitorArm (t : Vec3) :
    dataOf (monitorArm x t s) = dataOf s
      ∨ dataOf (monitorArm x t s) = { dataOf s with inside := Function.update (dataOf s).inside x 8 } := by
  unfold monitorArm
  split
  · exact .inl rfl
  · refine .inr ?_
    simp only [dataOf_removeCreep, dataOf_intrusionOnset, dataOf_latches, dataOf_inside]
    simp [insideRecords]

theorem dataOf_priority (n v : Nat) :
    dataOf { s with evu := { s.evu with sources := s.evu.sources.modify n (fun q => { q with priority := v }) } }
      = { dataOf s with priorities := (s.evu.sources.modify n (fun q => { q with priority := v })).map (·.priority) } :=
  rfl

theorem dataOf_interruptSession : dataOf (interruptSession x s) = dataOf s := by
  unfold interruptSession
  dsimp only
  (repeat' split) <;> simp

theorem dataOf_warmReset :
    dataOf (warmReset s) = { dataOf s with
      zones := 8, inside := fun _ => 8, channels := List.replicate 24 Channel.reset,
      aggregates := List.replicate 8 Aggregate.reset, applied := fun _ => AppliedSet.reset,
      tbs := s.tbs.all cutCheck } := by
  have hsame : dataOf (interruptSession .b (interruptSession .a s)) = dataOf s :=
    (dataOf_interruptSession _ _).trans (dataOf_interruptSession _ _)
  have hinside : (fun y => (Mgd.reset.arm.get y).inside.length) = fun _ => 8 := by funext y; cases y <;> rfl
  have happlied : (fun y => (Thu.reset.arm.get y).applied) = fun _ => AppliedSet.reset := by funext y; cases y <;> rfl
  unfold warmReset
  rw [dataOf_addMode, ← hsame]
  generalize interruptSession .b (interruptSession .a s) = u at hsame ⊢
  have hforce : (fun y => ((u.cen.both warmCen).get y).inForce) = fun y => (u.cenOf y).inForce := by
    funext y; cases y <;> rfl
  have htbs : u.tbs = s.tbs := congrArg Data.tbs hsame
  simp only [dataOf, State.mgdOf, State.thuOf, State.cenOf] at hinside happlied hforce ⊢
  simp only [hinside, happlied, hforce, htbs, clearEvents, List.map_map]
  rfl

end

end Sys2Proof.Proofs
end

section
/-! Invariants of the data (O3, O7): a predicate closed under the changes that the moves can make of the data is kept by every
step, and each data invariant is closed so. -/
namespace Sys2Proof.Proofs

open Sys2Proof.Machine Sys2Proof.Laws

/-- What a move can make of a kind's table state (R120 to R131). -/
inductive TableChange (k : TableKind) (t : TableState) : TableState → Prop
  | same : TableChange k t t
  | written (off : Nat) (ws : List Word) (h : off + ws.length ≤ capacity k) :
    TableChange k t { t with staging := Memory.writeAll t.staging off ws, state := .unchecked }
  | cleared : TableChange k t { t with staging := [], state := .empty }
  | marked (v : StagingState) (r : Option CheckResult) (he : v ≠ .empty) (hp : v = .passed → keepsRules k t.staging = true) :
    TableChange k t { t with state := v, lastResult := r }
  | swapped (h : t.state = .passed) : TableChange k t (swapBanks t)

/-- The changes of the data that a predicate has to allow. -/
structure Closed (P : Data → Prop) : Prop where
  level      : ∀ d v, P d → v ≤ 7 → P { d with reportLevel := v }
  priorities : ∀ d ps, P d → ps.length = d.priorities.length → (∀ p ∈ ps, p ≤ 7 ∨ p ∈ d.priorities) →
    P { d with priorities := ps }
  zones      : ∀ d, P d → P { d with zones := 8 }
  inside     : ∀ d n, P d → (∀ x, n x = 8 ∨ n x = d.inside x) → P { d with inside := n }
  restart    : ∀ d, P d → P { d with channels := List.replicate 24 Channel.reset }
  channel    : ∀ d i r sync m, P d → P { d with
    channels := d.channels.set i (updateChannel r sync m (d.channels.getD i Channel.reset)).1 }
  cleared    : ∀ d, P d → P { d with aggregates := List.replicate 8 Aggregate.reset }
  aggregate  : ∀ d a vs, P d → P { d with
    aggregates := d.aggregates.set a (nextAggregate vs (d.aggregates.getD a Aggregate.reset)) }
  applied    : ∀ d f, P d → (∀ x, f x = d.applied x
    ∨ ∀ t ∈ appliedTemps (f x), t = Temperature.reset ∨ ∃ i, t = (d.aggregates.getD i Aggregate.reset).temp) →
    P { d with applied := f }
  tables     : ∀ d f, P d → (∀ k, TableChange k (d.tbs.get k) (f.get k)) → P { d with tbs := f }
  inForce    : ∀ d x g, P d → P { d with
    inForce := Function.update d.inForce x ((d.tbs.get (.armMap x)).active.map (fun b => ⟨b, g⟩)) }
  record     : ∀ d, P d → P { d with record := (d.tbs.get .stationRecord).active }
  reset      : P (dataOf State.reset)

section
variable {P : Data → Prop} (hP : Closed P) {s t : State} {x : Arm} {k : TableKind}
include hP

theorem Closed.modify {f : TableState → TableState} (h : P (dataOf s)) (hf : TableChange k (s.tbsOf k) (f (s.tbsOf k))) :
    P { dataOf s with tbs := s.tbs.modify k f } := by
  refine hP.tables _ _ h (fun j => ?_)
  rw [get_kind_modify]
  split
  · next hj => subst hj; exact hf
  · exact .same

theorem Closed.onTbs {f : TableState → TableState} (h : P (dataOf s))
    (hf : TableChange k (s.tbsOf k) (f (s.tbsOf k))) : P (dataOf (s.onTbs k f)) := hP.modify h hf

theorem Closed.all {f : TableState → TableState} (h : P (dataOf s)) (hf : ∀ k t, TableChange k t (f t)) :
    P { dataOf s with tbs := s.tbs.all f } :=
  hP.tables _ _ h (fun j => by rw [get_kind_all]; exact hf j _)

/-! ### Tables -/

theorem Closed.check (h : P (dataOf s)) : P (dataOf (checkComplete k s)) := by
  obtain hsame | ⟨e, -, hcheck⟩ := dataOf_checkComplete s k
  · rwa [hsame]
  · rw [hcheck]
    refine hP.modify h (.marked _ _ (by split <;> simp) (fun hpassed => ?_))
    have hresult : checkBank k (s.tbsOf k).staging e s = .passed := by
      by_contra hne
      simp [hne] at hpassed
    unfold checkBank at hresult
    split_ifs at hresult
    split at hresult
    · next hnone => exact keepsRules_of_check hnone
    · cases hresult

theorem Closed.activate (h : P (dataOf s)) (hpassed : (s.tbsOf k).state = .passed) : P (dataOf (activate k s)) := by
  rw [dataOf_activate]
  refine hP.inside { dataOf s with tbs := _ } _ (hP.modify h (.swapped hpassed)) (fun y => ?_)
  split <;> simp

omit hP in
theorem checkPortion_change (k : TableKind) (t : TableState) : TableChange k t (checkPortion t) := by
  unfold checkPortion
  split
  · split <;> exact .marked _ t.lastResult (by simp) (by simp)
  · exact .same

omit hP in
theorem unfresh_change (k : TableKind) (t : TableState) : TableChange k t (unfresh t) := by
  unfold unfresh
  split
  · exact .marked _ t.lastResult (by simp) (by simp)
  · exact .same

omit hP in
theorem cutCheck_change (k : TableKind) (t : TableState) : TableChange k t (cutCheck t) := by
  unfold cutCheck
  split
  · exact .marked _ t.lastResult (by simp) (by simp)
  · exact .same

/-! ### The Thermal Unit, the Motion Guard, the warm reset -/

theorem Closed.advance (h : P (dataOf s)) : P (dataOf (advance x s)) := by
  rw [dataOf_advance]
  refine hP.applied _ _ h (fun y => ?_)
  by_cases hy : y = x
  · subst hy
    rw [Function.update_self]
    refine .inr (fun t ht => .inr ?_)
    simp only [appliedTemps, advancedSet, List.mem_cons, List.not_mem_nil, or_false] at ht
    obtain rfl | rfl | rfl | rfl | rfl := ht <;> exact ⟨_, rfl⟩
  · exact .inl (Function.update_of_ne hy _ _)

theorem Closed.thermal {sync : BitVec 64} {input : Memory 8} {step : ThermalStep} (h : P (dataOf s)) :
    P (dataOf (takeThermal sync input step s)) := by
  unfold takeThermal
  split
  · exact h
  · next table _ =>
    cases step with
    | restart =>
      obtain hsame | hrestart := dataOf_restartChannels s
      · exact hsame ▸ h
      · exact hrestart ▸ hP.restart _ h
    | channel i =>
      obtain hsame | ⟨r, m, hchannel⟩ := dataOf_intakeChannel s table sync input i
      · exact hsame ▸ h
      · exact hchannel ▸ hP.channel _ i r sync m h
    | aggregate a =>
      rw [show dataOf _ = _ from dataOf_aggregateRole s table a]
      exact hP.aggregate _ a _ h

theorem Closed.monitor {v : Vec3} (h : P (dataOf s)) : P (dataOf (monitorArm x v s)) := by
  obtain hsame | hinside := dataOf_monitorArm s x v
  · exact hsame ▸ h
  · rw [hinside]
    refine hP.inside _ _ h (fun y => ?_)
    by_cases hy : y = x <;> simp [Function.update, hy]

theorem Closed.warm (h : P (dataOf s)) : P (dataOf (warmReset s)) := by
  rw [dataOf_warmReset]
  have htables := hP.all h cutCheck_change
  have happlied := hP.applied _ (fun _ => AppliedSet.reset) (hP.cleared _ (hP.restart _ htables)) (fun _ => .inr (by
    simp [appliedTemps, AppliedSet.reset]))
  exact hP.zones _ (hP.inside _ (fun _ => 8) happlied (fun _ => .inl rfl))

/-! ### Owners and moves -/

omit hP in
theorem withArm_closed {v : Byte} {f : Arm → State → Served} (h : P (dataOf s)) (hf : ∀ x, P (dataOf (f x s).state)) :
    P (dataOf (withArm v f s).state) := withArm_keeps (Q := fun u => P (dataOf u)) h hf

omit hP in
theorem withKind_closed {v : Byte} {f : TableKind → State → Served} (h : P (dataOf s))
    (hf : ∀ k, P (dataOf (f k s).state)) : P (dataOf (withKind v f s).state) :=
  withKind_keeps (Q := fun u => P (dataOf u)) h hf

omit hP in
theorem afterChecks_closed {checks : List (Bool × Result)} {f : State → Served} (h : P (dataOf s))
    (hf : firstRefusal checks = none → P (dataOf (f s).state)) : P (dataOf (afterChecks checks f s).state) :=
  afterChecks_keeps (Q := fun u => P (dataOf u)) h hf

theorem Closed.tableWrite {kind count : Byte} {offset : BitVec 16} {words : ParamWords} (h : P (dataOf s)) :
    P (dataOf (ownTableWrite kind count offset words s).state) := by
  refine withKind_closed h (fun k => afterChecks_closed h (fun hchecks => hP.onTbs h (.written _ _ ?_)))
  have hfits : offset.toNat + count.toNat ≤ capacity k := by
    by_contra hover
    simp [firstRefusal, hover] at hchecks
  have hlength : ((paramList words).take count.toNat).length ≤ count.toNat := List.length_take_le ..
  omega

theorem Closed.tableActivate {kind : Byte} (h : P (dataOf s)) : P (dataOf (ownTableActivate kind s).state) := by
  refine withKind_closed h (fun k => afterChecks_closed h (fun hchecks => ?_))
  have hpassed : (s.tbsOf k).state = .passed := by
    by_contra hother
    simp [firstRefusal, hother] at hchecks
  dsimp only
  split
  · rw [show dataOf _ = _ from dataOf_failCross s k _]
    exact hP.modify h (.marked _ _ (by simp) (by simp))
  · exact hP.activate h hpassed

omit hP in
theorem mem_priorities_modify {qs : List SourceState} {n v p : Nat}
    (h : p ∈ (qs.modify n (fun q => { q with priority := v })).map (·.priority)) :
    p = v ∨ p ∈ qs.map (·.priority) := by
  obtain ⟨q, hq, rfl⟩ := List.mem_map.1 h
  obtain ⟨i, hi, rfl⟩ := List.getElem_of_mem hq
  rw [List.getElem_modify]
  split
  · exact .inl rfl
  · exact .inr (List.mem_map_of_mem (List.getElem_mem _))

theorem Closed.owner {c : RequestCode} {own : State → Served} (ho : Owner c own) (h : P (dataOf s)) :
    P (dataOf (own s).state) := by
  cases hc : writesData c with
  | false => exact (ho.keepsData hc s).symm ▸ h
  | true =>
    cases ho with
    | stationReset => exact hP.warm h
    | tableWrite => exact hP.tableWrite h
    | tableClear => exact withKind_closed h (fun k => afterChecks_closed h (fun _ => hP.onTbs h .cleared))
    | tableCheck =>
      exact withKind_closed h (fun k => afterChecks_closed h
        (fun _ => hP.onTbs h (.marked _ (s.tbsOf k).lastResult (by simp) (by simp))))
    | tableActivate => exact hP.tableActivate h
    | featureClose a =>
      refine withArm_closed h (fun x => ?_)
      split_ifs
      · exact h
      · obtain hsame | hadvance := dataOf_takeDeferred (s.onTcu x (fun u => { u with bracketOpen := false })) x
        · exact hsame ▸ h
        · exact hadvance ▸ hP.advance (s := s.onTcu x _) h
      · exact h
    | thermalAdvance a =>
      exact withArm_closed h (fun x => afterChecks_closed h (fun _ => (dataOf_reloadCountdown _ x).symm ▸ hP.advance h))
    | eventPriority n p =>
      refine afterChecks_closed h (fun hchecks => hP.priorities _ _ h (by simp [dataOf]) (fun q hq => ?_))
      have hvalue : paramByte p ≤ 7 := by
        by_contra hover
        have hlarge : 7 < paramByte p := by omega
        simp [firstRefusal, hlarge] at hchecks
      obtain rfl | hold := mem_priorities_modify hq
      · exact .inl hvalue
      · exact .inr hold
    | reportLevel l =>
      refine afterChecks_closed h (fun hchecks => hP.level _ _ h ?_)
      show paramByte l ≤ 7
      by_contra hover
      have hlarge : 7 < paramByte l := by omega
      simp [firstRefusal, hlarge] at hchecks
    | _ => cases hc

theorem Closed.move (hm : Move s t) (h : P (dataOf s)) : P (dataOf t) := by
  cases hm with
  | line v hv => exact (dataOf_riu s hv.record).symm ▸ h
  | record => exact hP.record _ h
  | ringBegin => simpa [dataOf_riu] using h
  | autoAdvance x =>
    obtain hsame | hadvance := dataOf_autoAdvance s x
    · exact hsame ▸ h
    · exact hadvance ▸ hP.advance h
  | check k => exact hP.check h
  | unfresh => exact hP.all h unfresh_change
  | refreshMap x => exact dataOf_refreshMap s x ▸ hP.inForce _ x _ h
  | thermal => exact hP.thermal h
  | monitor => exact hP.monitor h
  | checks => exact hP.all h checkPortion_change
  | powerOn a b =>
    have hreset : dataOf (powerOn a b s) = dataOf State.reset := rfl
    exact hreset ▸ hP.reset
  | serve ho => exact hP.owner ho h
  | missed | turned | ringEnd | exchange | drainMark => exact h
  | _ => simpa using h

/-- A closed predicate of the data is kept by every step. -/
theorem Closed.step (hs : P (dataOf s)) (h : step s = .next t) : P (dataOf t) :=
  step_keeps (P := fun u => P (dataOf u)) (fun _ _ => id) (fun hm => hP.move hm) hs h

end

/-! ### The five invariants -/

/-- The sizes, the report level and the priorities are in range. -/
structure Sized (d : Data) : Prop where
  level      : d.reportLevel ≤ 7
  sources    : d.priorities.length = 17
  priorities : ∀ p ∈ d.priorities, p ≤ 7
  tips       : d.tips = 32
  ports      : d.ports = 12
  zones      : d.zones = 8
  channels   : d.channels.length = 24
  aggregates : d.aggregates.length = 8

theorem sized_closed : Closed Sized where
  level := fun _ _ h hv => { h with level := hv }
  priorities := fun _ _ h hl hp =>
    { h with sources := hl.trans h.sources, priorities := fun p hm => (hp p hm).elim id (h.priorities p) }
  zones := fun _ h => { h with zones := rfl }
  inside := fun _ _ h _ => { h with }
  restart := fun _ h => { h with channels := rfl }
  channel := fun _ _ _ _ _ h => { h with channels := (List.length_set ..).trans h.channels }
  cleared := fun _ h => { h with aggregates := rfl }
  aggregate := fun _ _ _ h => { h with aggregates := (List.length_set ..).trans h.aggregates }
  applied := fun _ _ h _ => { h with }
  tables := fun _ _ h _ => { h with }
  inForce := fun _ _ _ h => { h with }
  record := fun _ h => { h with }
  reset := ⟨by decide, by decide, by decide, rfl, rfl, rfl, rfl, rfl⟩

theorem numbersBounded_iff {s : State} : NumbersBounded s ↔ Counted s ∧ Sized (dataOf s) := by
  constructor
  · rintro ⟨hqueue, hmissed, hturned, hhistory, hlevel, hsources, hpriorities, htips, hports, hzones, hchannels,
      haggregates⟩
    refine ⟨⟨hqueue, hmissed, hturned, hhistory⟩, hlevel, (List.length_map ..).trans hsources, fun p hp => ?_, htips,
      hports, hzones, hchannels, haggregates⟩
    obtain ⟨q, hq, rfl⟩ := List.mem_map.1 hp
    exact hpriorities q hq
  · rintro ⟨⟨hqueue, hmissed, hturned, hhistory⟩, hlevel, hsources, hpriorities, htips, hports, hzones, hchannels,
      haggregates⟩
    exact ⟨hqueue, hmissed, hturned, hhistory, hlevel, (List.length_map ..).symm.trans hsources,
      fun q hq => hpriorities _ (List.mem_map_of_mem hq), htips, hports, hzones, hchannels, haggregates⟩

theorem Move.numbersBounded {s t : State} (hm : Move s t) (h : NumbersBounded s) : NumbersBounded t := by
  obtain ⟨hcounted, hsized⟩ := numbersBounded_iff.1 h
  exact numbersBounded_iff.2 ⟨hm.counted hcounted, sized_closed.move hm hsized⟩

/-- Every aggregate and every applied temperature lies within 10,000..50,000 m°C. -/
structure Tempered (d : Data) : Prop where
  aggregates : ∀ g ∈ d.aggregates, tempOk g.temp
  applied    : ∀ x, ∀ t ∈ appliedTemps (d.applied x), tempOk t

theorem tempOk_reset : tempOk Temperature.reset := ⟨by decide, by decide⟩

theorem tempOk_clampMean (m : Int) : tempOk (clampMean m) := by
  unfold clampMean tempOk
  split_ifs <;> dsimp only <;> omega

theorem tempOk_nextAggregate {vs : List Int} {g : Aggregate} (h : tempOk g.temp) : tempOk (nextAggregate vs g).temp := by
  unfold nextAggregate
  split_ifs
  · exact h
  · exact tempOk_reset
  · exact tempOk_clampMean _

/-- What holds of every entry of a list and of the default holds of the entry read at an index. -/
theorem getD_of_forall {α : Type} {Q : α → Prop} {l : List α} {d : α} (hl : ∀ a ∈ l, Q a) (hd : Q d) (i : Nat) :
    Q (l.getD i d) := by
  rw [List.getD_eq_getElem?_getD]
  cases h : l[i]? with
  | none => exact hd
  | some a => exact hl a (List.mem_of_getElem? h)

theorem tempered_closed : Closed Tempered where
  level := fun _ _ h _ => { h with }
  priorities := fun _ _ h _ _ => { h with }
  zones := fun _ h => { h with }
  inside := fun _ _ h _ => { h with }
  restart := fun _ h => { h with }
  channel := fun _ _ _ _ _ h => { h with }
  cleared := fun _ h => { h with aggregates := fun g hg => by rw [List.eq_of_mem_replicate hg]; exact tempOk_reset }
  aggregate := fun _ a _ h => by
    refine ⟨fun g hg => ?_, h.applied⟩
    obtain hold | rfl := List.mem_or_eq_of_mem_set hg
    · exact h.aggregates g hold
    · exact tempOk_nextAggregate (getD_of_forall (Q := fun g : Aggregate => tempOk g.temp) h.aggregates tempOk_reset a)
  applied := fun _ _ h hf => by
    refine ⟨h.aggregates, fun x t ht => ?_⟩
    obtain hsame | hnew := hf x
    · exact h.applied x t (hsame ▸ ht)
    · obtain rfl | ⟨i, rfl⟩ := hnew t ht
      · exact tempOk_reset
      · exact getD_of_forall (Q := fun g : Aggregate => tempOk g.temp) h.aggregates tempOk_reset i
  tables := fun _ _ h _ => { h with }
  inForce := fun _ _ _ h => { h with }
  record := fun _ h => { h with }
  reset := ⟨by decide, fun x => by cases x <;> decide⟩

/-- An arm has eight inside records, and a channel a filter state exactly outside NO_DATA. -/
structure Recorded (d : Data) : Prop where
  inside   : ∀ x, d.inside x = 8
  channels : ∀ c ∈ d.channels, c.filter = none ↔ c.state = .noData

/-- R33 to R37: an update keeps a filter state exactly outside NO_DATA. -/
theorem updateChannel_filter {r : ChannelRecord} {sync : BitVec 64} {m : TempReading} {c : Channel}
    (h : c.filter = none ↔ c.state = .noData) :
    (updateChannel r sync m c).1.filter = none ↔ (updateChannel r sync m c).1.state = .noData := by
  unfold updateChannel
  split
  · dsimp only
    split
    · unfold rejectSample
      dsimp only
      split <;> (try split) <;> simp_all
    · simp [acceptSample]
  · exact h

theorem recorded_closed : Closed Recorded where
  level := fun _ _ h _ => { h with }
  priorities := fun _ _ h _ _ => { h with }
  zones := fun _ h => { h with }
  inside := fun _ _ h hn => { h with inside := fun x => (hn x).elim id (fun hx => hx.trans (h.inside x)) }
  restart := fun _ h => { h with channels := fun c hc => by rw [List.eq_of_mem_replicate hc]; simp [Channel.reset] }
  channel := fun _ i _ _ _ h => by
    refine ⟨h.inside, fun c hc => ?_⟩
    obtain hold | rfl := List.mem_or_eq_of_mem_set hc
    · exact h.channels c hold
    · exact updateChannel_filter (getD_of_forall (Q := fun c : Channel => c.filter = none ↔ c.state = .noData) h.channels
        (by simp [Channel.reset]) i)
  cleared := fun _ h => { h with }
  aggregate := fun _ _ _ h => { h with }
  applied := fun _ _ h _ => { h with }
  tables := fun _ _ h _ => { h with }
  inForce := fun _ _ _ h => { h with }
  record := fun _ h => { h with }
  reset := ⟨fun x => by cases x <;> rfl, by decide⟩

theorem temperaturesInRange_iff {s : State} : TemperaturesInRange s ↔ Tempered (dataOf s) :=
  ⟨fun ⟨ha, hx⟩ => ⟨ha, hx⟩, fun ⟨ha, hx⟩ => ⟨ha, hx⟩⟩

theorem recordsKept_iff {s : State} : RecordsKept s ↔ Recorded (dataOf s) :=
  ⟨fun ⟨hi, hc⟩ => ⟨hi, hc⟩, fun ⟨hi, hc⟩ => ⟨hi, hc⟩⟩

/-- Settles O3: the counts are kept move by move, and the three invariants of the data are closed under every change. -/
theorem stepKeepsNumbersBounded : Obligations.StepKeepsNumbersBounded := by
  unfold Obligations.StepKeepsNumbersBounded
  refine ⟨fun s t hs h => ?numbers, fun s t hs h => ?temperatures, fun s t hs h => ?records⟩
  case numbers => exact step_keeps (fun _ _ hu => hu) Move.numbersBounded hs h
  case temperatures => exact temperaturesInRange_iff.2 (tempered_closed.step (temperaturesInRange_iff.1 hs) h)
  case records => exact recordsKept_iff.2 (recorded_closed.step (recordsKept_iff.1 hs) h)

/-- Every bank is canonical and within its capacity, and an EMPTY staging bank holds no word. -/
structure Canonical (d : Data) : Prop where
  staging : ∀ k, bankOk k (d.tbs.get k).staging = true
  active  : ∀ k, ∀ b ∈ (d.tbs.get k).active, bankOk k b = true
  empty   : ∀ k, (d.tbs.get k).state = .empty → (d.tbs.get k).staging = []
  inForce : ∀ x, ∀ f ∈ d.inForce x, bankOk (.armMap x) f.bank = true
  record  : ∀ b ∈ d.record, bankOk .stationRecord b = true

theorem bankOk_nil (k : TableKind) : bankOk k [] = true := rfl

theorem bankOk_writeAll {k : TableKind} {b : Bank} {off : Nat} {ws : List Word} (h : bankOk k b = true)
    (hw : off + ws.length ≤ capacity k) : bankOk k (Memory.writeAll b off ws) = true := by
  simp only [bankOk, Bool.and_eq_true] at h ⊢
  exact ⟨wf_writeAll h.1, below_writeAll h.2 hw⟩

/-- A table state whose banks are canonical, an EMPTY one holding no word. -/
structure CanonicalTable (k : TableKind) (t : TableState) : Prop where
  staging : bankOk k t.staging = true
  active  : ∀ b ∈ t.active, bankOk k b = true
  empty   : t.state = .empty → t.staging = []

theorem CanonicalTable.change {k : TableKind} {t u : TableState} (h : CanonicalTable k t) (hc : TableChange k t u) :
    CanonicalTable k u := by
  cases hc with
  | same => exact h
  | written off ws hw => exact ⟨bankOk_writeAll h.staging hw, h.active, by simp⟩
  | cleared => exact ⟨bankOk_nil k, h.active, fun _ => rfl⟩
  | marked v r he => exact ⟨h.staging, h.active, fun hv => absurd hv he⟩
  | swapped =>
    cases ha : t.active with
    | none => exact ⟨by simp [swapBanks, ha, bankOk_nil], by simpa [swapBanks] using h.staging, by simp [swapBanks, ha]⟩
    | some b =>
      exact ⟨by simpa [swapBanks, ha] using h.active b ha, by simpa [swapBanks] using h.staging, by simp [swapBanks, ha]⟩

theorem canonical_closed : Closed Canonical where
  level := fun _ _ h _ => { h with }
  priorities := fun _ _ h _ _ => { h with }
  zones := fun _ h => { h with }
  inside := fun _ _ h _ => { h with }
  restart := fun _ h => { h with }
  channel := fun _ _ _ _ _ h => { h with }
  cleared := fun _ h => { h with }
  aggregate := fun _ _ _ h => { h with }
  applied := fun _ _ h _ => { h with }
  tables := fun d _ h hf => by
    have hnew (k) := CanonicalTable.change ⟨h.staging k, h.active k, h.empty k⟩ (hf k)
    exact ⟨fun k => (hnew k).staging, fun k => (hnew k).active, fun k => (hnew k).empty, h.inForce, h.record⟩
  inForce := fun d x g h => by
    refine ⟨h.staging, h.active, h.empty, fun y f hy => ?_, h.record⟩
    dsimp only at hy
    by_cases hyx : y = x
    · subst hyx
      rw [Function.update_self, Option.mem_def, Option.map_eq_some_iff] at hy
      obtain ⟨b, hb, rfl⟩ := hy
      exact h.active _ b hb
    · rw [Function.update_of_ne hyx] at hy
      exact h.inForce y f hy
  record := fun _ h => { h with record := h.active .stationRecord }
  reset := ⟨forall_kind.2 (by decide), forall_kind.2 (by decide), forall_kind.2 (by decide), forall_arm.2 (by decide),
    by decide⟩

/-- Every active bank, and every staging bank in PASSED, keeps the content rules of its kind. -/
structure Sound (d : Data) : Prop where
  active : ∀ k, ∀ b ∈ (d.tbs.get k).active, keepsRules k b = true
  passed : ∀ k, (d.tbs.get k).state = .passed → keepsRules k (d.tbs.get k).staging = true

/-- A table state whose active bank, and whose staging bank in PASSED, keep the content rules. -/
structure SoundTable (k : TableKind) (t : TableState) : Prop where
  active : ∀ b ∈ t.active, keepsRules k b = true
  passed : t.state = .passed → keepsRules k t.staging = true

theorem SoundTable.change {k : TableKind} {t u : TableState} (h : SoundTable k t) (hc : TableChange k t u) :
    SoundTable k u := by
  cases hc with
  | same => exact h
  | written | cleared => exact ⟨h.active, by simp⟩
  | marked v r he hp => exact ⟨h.active, hp⟩
  | swapped hpassed =>
    cases ha : t.active with
    | none => exact ⟨by simpa [swapBanks] using h.passed hpassed, by simp [swapBanks, ha]⟩
    | some b => exact ⟨by simpa [swapBanks] using h.passed hpassed, by simpa [swapBanks, ha] using h.active b ha⟩

theorem sound_closed : Closed Sound where
  level := fun _ _ h _ => { h with }
  priorities := fun _ _ h _ _ => { h with }
  zones := fun _ h => { h with }
  inside := fun _ _ h _ => { h with }
  restart := fun _ h => { h with }
  channel := fun _ _ _ _ _ h => { h with }
  cleared := fun _ h => { h with }
  aggregate := fun _ _ _ h => { h with }
  applied := fun _ _ h _ => { h with }
  tables := fun d _ h hf => by
    have hnew (k) := SoundTable.change ⟨h.active k, h.passed k⟩ (hf k)
    exact ⟨fun k => (hnew k).active, fun k => (hnew k).passed⟩
  inForce := fun _ _ _ h => { h with }
  record := fun _ h => { h with }
  reset := ⟨forall_kind.2 (by decide), forall_kind.2 (by decide)⟩

theorem banksCanonical_iff {s : State} : BanksCanonical s ↔ Canonical (dataOf s) :=
  ⟨fun ⟨hk, hx, hr⟩ => ⟨fun k => (hk k).1, fun k => (hk k).2.1, fun k => (hk k).2.2, hx, hr⟩,
   fun ⟨hs, ha, he, hx, hr⟩ => ⟨fun k => ⟨hs k, ha k, he k⟩, hx, hr⟩⟩

theorem banksSound_iff {s : State} : BanksSound s ↔ Sound (dataOf s) :=
  ⟨fun h => ⟨fun k => (h k).1, fun k => (h k).2⟩, fun ⟨ha, hp⟩ k => ⟨ha k, hp k⟩⟩

/-- Settles O7: both invariants are closed under every change of the data. -/
theorem stepKeepsBanks : Obligations.StepKeepsBanks := by
  unfold Obligations.StepKeepsBanks
  refine ⟨fun s t hs h => ?canonical, fun s t hs h => ?sound⟩
  case canonical => exact banksCanonical_iff.2 (canonical_closed.step (banksCanonical_iff.1 hs) h)
  case sound => exact banksSound_iff.2 (sound_closed.step (banksSound_iff.1 hs) h)

end Sys2Proof.Proofs
end

section
/-! The two arms' control: the station state, each arm's trigger state, session record and countdown, and the steps by which a
move can change them. -/
namespace Sys2Proof.Proofs

open Sys2Proof.Machine Sys2Proof.Laws

/-- A session record with its timer's value left out: only whether it runs is kept. -/
def untimed (c : Session) : Session := { c with timer := c.timer.map (fun _ => 0) }

/-- The station state and, for each arm, the code of its trigger state, its session record and whether its auto-advance
countdown runs. -/
structure Arms where
  station  : StationState
  trigger  : Arm → Nat
  session  : Arm → Session
  counting : Arm → Bool

/-- The two arms' control in a state. -/
def armsOf (s : State) : Arms where
  station := s.riu.station
  trigger := fun x => triggerCode (triggerOf s x)
  session := fun x => untimed (sessionOf s x)
  counting := fun x => (s.thuOf x).countdown.isSome

/-- The code of a trigger state after a restore (R53). -/
def restoredCode (n : Nat) : Nat := if n = 4 then 0 else n

theorem triggerCode_restored (t : Trigger) : triggerCode (restored t) = restoredCode (triggerCode t) := by
  cases t <;> rfl

theorem triggerCode_eq_zero {t : Trigger} : triggerCode t = 0 ↔ t = .disarmed := by cases t <;> simp [triggerCode]

theorem triggerCode_eq_four {t : Trigger} : triggerCode t = 4 ↔ t = .suppressed := by cases t <;> simp [triggerCode]

section
variable (s : State) (x : Arm)

/-! ### Updates that leave the control as it is -/

/-- A change of other blocks leaves the control as it is. -/
theorem armsOf_of_touches {t : State} (h : Touches [.rqu, .tbs, .cen, .mgd, .evu] s t) : armsOf t = armsOf s := by
  have hriu : t.riu = s.riu := h.riu (by decide)
  have hthu : t.thu = s.thu := h.thu (by decide)
  have htcu : t.tcu = s.tcu := h.tcu (by decide)
  have hpcc : t.pcc = s.pcc := h.pcc (by decide)
  simp only [armsOf, triggerOf, sessionOf, State.thuOf, State.tcuOf, State.pccOf, hriu, hthu, htcu, hpcc]

theorem armsOf_riu {v : Riu} (h : v.station = s.riu.station) : armsOf { s with riu := v } = armsOf s := by
  simp only [armsOf, h]
  rfl

theorem armsOf_onTcu (f : TcuArm → TcuArm) :
    armsOf (s.onTcu x f)
      = { armsOf s with trigger := Function.update (armsOf s).trigger x (triggerCode (f (s.tcuOf x)).trigger) } := by
  unfold State.onTcu
  simp only [armsOf, triggerOf, State.tcuOf]
  rw [funext_modify x s.tcu.arm _ (fun u => triggerCode u.trigger)]
  rfl

theorem armsOf_onPcc (f : PccArm → PccArm) :
    armsOf (s.onPcc x f)
      = { armsOf s with session := Function.update (armsOf s).session x (untimed (f (s.pccOf x)).session) } := by
  unfold State.onPcc
  simp only [armsOf, sessionOf, State.pccOf]
  rw [funext_modify x s.pcc.arm _ (fun p => untimed p.session)]
  rfl

theorem armsOf_onThu (f : ThuArm → ThuArm) :
    armsOf (s.onThu x f)
      = { armsOf s with counting := Function.update (armsOf s).counting x (f (s.thuOf x)).countdown.isSome } := by
  unfold State.onThu
  simp only [armsOf, State.thuOf]
  rw [funext_modify x s.thu.arm _ (fun t => t.countdown.isSome)]
  rfl

theorem armsOf_onTcu_same {f : TcuArm → TcuArm}
    (h : triggerCode (f (s.tcuOf x)).trigger = triggerCode (s.tcuOf x).trigger) : armsOf (s.onTcu x f) = armsOf s := by
  rw [armsOf_onTcu, h]
  exact congrArg (fun t => { armsOf s with trigger := t }) (Function.update_eq_self x _)

theorem armsOf_onPcc_same {f : PccArm → PccArm} (h : untimed (f (s.pccOf x)).session = untimed (s.pccOf x).session) :
    armsOf (s.onPcc x f) = armsOf s := by
  rw [armsOf_onPcc, h]
  exact congrArg (fun t => { armsOf s with session := t }) (Function.update_eq_self x _)

theorem armsOf_onThu_same {f : ThuArm → ThuArm}
    (h : (f (s.thuOf x)).countdown.isSome = (s.thuOf x).countdown.isSome) : armsOf (s.onThu x f) = armsOf s := by
  rw [armsOf_onThu, h]
  exact congrArg (fun t => { armsOf s with counting := t }) (Function.update_eq_self x _)

/-- A change of a session record that the untimed record follows. -/
theorem armsOf_onSession {f g : Session → Session} (h : ∀ c, untimed (f c) = g (untimed c)) :
    armsOf (onSession x f s)
      = { armsOf s with session := Function.update (armsOf s).session x (g ((armsOf s).session x)) } := by
  rw [onSession, armsOf_onPcc, h]
  rfl

@[simp] theorem armsOf_post (src : EventSource) (d : Detail) : armsOf (post src d s) = armsOf s :=
  armsOf_of_touches s (by simp)

@[simp] theorem armsOf_raise (c : Cause) : armsOf (raise x c s) = armsOf s := armsOf_of_touches s (by simp)

@[simp] theorem armsOf_raiseMasked (m : MaskBit) (c : Cause) : armsOf (raiseMasked x m c s) = armsOf s :=
  armsOf_of_touches s (by simp)

@[simp] theorem armsOf_whenDo {f : State → State} (h : ∀ u, armsOf (f u) = armsOf u) (c : Bool) :
    armsOf (whenDo c f s) = armsOf s := by
  unfold whenDo
  split
  · exact h s
  · rfl

@[simp] theorem armsOf_moveTip (t : Nat) (l : TipLocation) : armsOf (moveTip t l s) = armsOf s := rfl

@[simp] theorem armsOf_setPort (p : Nat) (v : PortState) : armsOf (setPort p v s) = armsOf s := rfl

@[simp] theorem armsOf_setZone (z : Nat) (v : Zone) : armsOf (setZone z v s) = armsOf s := rfl

@[simp] theorem armsOf_ageLatch : armsOf (ageLatch x s) = armsOf s := by
  unfold ageLatch
  split
  · next l hl =>
    have htrigger : (s.tcuOf x).trigger = .latched l := hl
    exact armsOf_onTcu_same s x (by simp [htrigger, triggerCode])
  · exact armsOf_onTcu_same s x rfl

@[simp] theorem armsOf_emptyHistory : armsOf (emptyHistory x s) = armsOf s := by
  unfold emptyHistory
  dsimp only
  split
  · exact armsOf_ageLatch _ _
  · rfl

@[simp] theorem armsOf_unverifyFormer (l : TipLocation) (p : Nat) : armsOf (unverifyFormer l p s) = armsOf s := by
  unfold unverifyFormer
  split
  · split <;> rfl
  · rfl

@[simp] theorem armsOf_clearRack (p : Nat) : armsOf (clearRack p s) = armsOf s := armsOf_of_touches s (by simp)

@[simp] theorem armsOf_withdrawWait (z : Nat) : armsOf (withdrawWait x z s) = armsOf s := armsOf_of_touches s (by simp)

@[simp] theorem armsOf_applyClaim (z : Nat) : armsOf (applyClaim x z s) = armsOf s := armsOf_of_touches s (by simp)

@[simp] theorem armsOf_numericOnset (sat beyond : BitVec 3) : armsOf (numericOnset x sat beyond s) = armsOf s :=
  armsOf_of_touches s (by simp)

@[simp] theorem armsOf_joinQueue (p : Point) : armsOf (joinQueue p s) = armsOf s := by
  unfold joinQueue
  split
  · rfl
  · exact armsOf_of_touches s (by simp)

@[simp] theorem armsOf_resolutionStep (c : Option (BitVec 64)) : armsOf (resolutionStep x c s) = armsOf s := by
  unfold resolutionStep
  split
  · split
    · exact armsOf_onTcu_same s x rfl
    · simp
  · simp

@[simp] theorem armsOf_correctArm (input : Memory 8) : armsOf (correctArm x input s).state = armsOf s := by
  unfold correctArm
  split
  · split
    · simp
    · split
      · simp only [correctInvalid, armsOf_resolutionStep]
        exact armsOf_of_touches s (by simp [whenDo]; split <;> simp)
      · simp only [correctValid, armsOf_resolutionStep]
        rfl
  · rfl

@[simp] theorem armsOf_writePoints (w i : Nat) (ps : List Point) : armsOf (writePoints w i ps s) = armsOf s := by
  induction ps generalizing i s with
  | nil => rfl
  | cons p ps ih => exact (ih _ _).trans rfl

@[simp] theorem armsOf_drainPoints : armsOf (drainPoints s) = armsOf s := by
  unfold drainPoints
  split
  · rfl
  · exact armsOf_writePoints _ _ _ _

theorem armsOf_of_thu {t : State} (h : Touches [.thu, .mgd, .evu] s t) (harm : t.thu.arm = s.thu.arm) :
    armsOf t = armsOf s := by
  have hriu : t.riu = s.riu := h.riu (by decide)
  have htcu : t.tcu = s.tcu := h.tcu (by decide)
  have hpcc : t.pcc = s.pcc := h.pcc (by decide)
  simp only [armsOf, triggerOf, sessionOf, State.thuOf, State.tcuOf, State.pccOf, hriu, harm, htcu, hpcc]

theorem takeThermal_arm (sync : BitVec 64) (input : Memory 8) (t : ThermalStep) :
    (takeThermal sync input t s).thu.arm = s.thu.arm := by
  unfold takeThermal
  split
  · rfl
  · cases t with
    | restart => dsimp only [restartChannels]; split <;> rfl
    | channel i =>
      dsimp only [intakeChannel]
      split
      · unfold postChannel
        split <;> rfl
      · rfl
    | aggregate a => dsimp only; rw [aggregateRole_thu]; rfl

@[simp] theorem armsOf_takeThermal (sync : BitVec 64) (input : Memory 8) (t : ThermalStep) :
    armsOf (takeThermal sync input t s) = armsOf s :=
  armsOf_of_thu s (by simp) (takeThermal_arm s sync input t)

@[simp] theorem armsOf_tickRearm : armsOf (tickRearm x s) = armsOf s := by
  unfold tickRearm
  split
  · next n hn =>
    have htrigger : (s.tcuOf x).trigger = .rearm n := hn
    exact armsOf_onTcu_same s x (by simp [htrigger, triggerCode])
  · rfl

@[simp] theorem armsOf_tickStep : armsOf (tickStep x s) = armsOf s := by
  unfold tickStep
  split
  · exact armsOf_onPcc_same s x (by cases h : (s.pccOf x).session.timer <;> simp [untimed, h])
  · rfl

@[simp] theorem armsOf_tickCountdown : armsOf (tickCountdown x s) = armsOf s :=
  armsOf_onThu_same s x (by simp)

@[simp] theorem armsOf_readStatus (input : Memory 8) : armsOf (readStatus x input s) = armsOf s := by
  unfold readStatus
  split
  · rfl
  · dsimp only
    split
    · simp [supervise, armsOf_onPcc_same]
    · exact (armsOf_onPcc_same _ x rfl).trans (armsOf_onPcc_same s x rfl)

@[simp] theorem armsOf_takeRack (input : Memory 8) (spared : List Nat) (t : RackStep) :
    armsOf (takeRack input spared t s) = armsOf s := by
  unfold takeRack
  split
  · rfl
  · cases t with
    | reading => rfl
    | port p =>
      dsimp only
      split
      · rfl
      · unfold monitorPort
        split
        · rfl
        · split <;> rfl

/-! ### Updates of one arm -/

theorem armsOf_onTrigger (f : Trigger → Trigger) :
    armsOf (onTrigger x f s)
      = { armsOf s with trigger := Function.update (armsOf s).trigger x (triggerCode (f (triggerOf s x))) } :=
  armsOf_onTcu s x _

theorem armsOf_setTrigger (t : Trigger) :
    armsOf (setTrigger x t s)
      = { armsOf s with trigger := Function.update (armsOf s).trigger x (triggerCode t) } :=
  armsOf_onTrigger s x (fun _ => t)

end

/-! ### The steps of the control -/

/-- A step of the arms' control. -/
inductive ArmsStep (a : Arms) : Arms → Prop
  /-- R83: a waiting session is granted zone 0. -/
  | enter (y : Arm) (h : (a.session y).state = .waitZone) :
    ArmsStep a { a with session := Function.update a.session y { a.session y with
      state := if (a.session y).dropTip.isSome then .drop else .pick, timer := some 0 } }
  /-- R85: a completed drop goes on to the pick. -/
  | next (x : Arm) (h : (a.session x).state = .drop) (hp : (a.session x).pickTip.isSome = true) :
    ArmsStep a { a with session := Function.update a.session x { a.session x with state := .pick, timer := some 0 } }
  /-- R89: a session faults. -/
  | fault (x : Arm) (c : FaultCause) (h : inStep (a.session x) = true ∨ (a.session x).state = .fault) :
    ArmsStep a { a with session := Function.update a.session x { a.session x with
      state := .fault, timer := none, fault := some c } }
  /-- R88, R91, R95: a session ends and the trigger is restored. -/
  | ended (x : Arm) :
    ArmsStep a { a with
      trigger := Function.update a.trigger x (restoredCode (a.trigger x)),
      session := Function.update a.session x Session.idle }
  /-- R82: a session begins, in RUN and with the trigger not LATCHED. -/
  | begin (x : Arm) (dropTip dropPort pickTip pickPort : Option Nat) (hrun : a.station = .run)
      (hd : dropTip.isSome = dropPort.isSome) (hp : pickTip.isSome = pickPort.isSome)
      (hsome : dropTip.isSome = true ∨ pickTip.isSome = true) :
    ArmsStep a { a with
      trigger := Function.update a.trigger x 4,
      session := Function.update a.session x ⟨.waitZone, dropTip, dropPort, pickTip, pickPort, none, none⟩ }
  /-- A trigger moves among the states other than SUPPRESSED; outside RUN it leaves DISARMED for none. -/
  | trigger (x : Arm) (n : Nat) (h : a.trigger x ≠ 4) (hn : n ≠ 4)
      (hrest : n = 0 ∨ a.trigger x ≠ 0 ∨ a.station = .run) :
    ArmsStep a { a with trigger := Function.update a.trigger x n }
  | counting (x : Arm) (v : Bool) (h : v = true → a.station = .run ∨ a.counting x = true) :
    ArmsStep a { a with counting := Function.update a.counting x v }
  | run : ArmsStep a { a with station := .run }
  /-- A station state other than RUN is entered from another such state, or with both arms at rest. -/
  | rest (v : StationState)
      (h : a.station ≠ .run ∨ ∀ x, (a.trigger x = 0 ∨ a.trigger x = 4)
        ∧ ((a.session x).state = .idle ∨ (a.session x).state = .fault) ∧ a.counting x = false) :
    ArmsStep a { a with station := v }
  | reset (v : StationState) : ArmsStep a ⟨v, fun _ => 0, fun _ => Session.idle, fun _ => false⟩

/-- A sequence of steps of the arms' control. -/
abbrev ArmsSteps : Arms → Arms → Prop := Relation.ReflTransGen ArmsStep

section
variable {s : State} {x : Arm} {a : Arms}

theorem ArmsSteps.of_eq {a b : Arms} (h : b = a) : ArmsSteps a b := h ▸ .refl

theorem armsOf_enterStep (h : (sessionOf s x).state = .waitZone) : ArmsSteps (armsOf s) (armsOf (enterStep x s)) := by
  have henter := ArmsStep.enter (a := armsOf s) x h
  rw [enterStep, onSession, armsOf_onPcc]
  exact .single henter

theorem armsOf_grantZone (z : Nat) : ArmsSteps (armsOf s) (armsOf (grantZone x z s)) := by
  unfold grantZone
  dsimp only
  split
  · next h => exact armsOf_enterStep (s := post _ _ (setZone z _ s)) h.2
  · exact .refl

theorem armsOf_releaseZone (announce : Bool) (z : Nat) : ArmsSteps (armsOf s) (armsOf (releaseZone announce z s)) := by
  unfold releaseZone
  split
  · exact .refl
  · next holder _ _ _ =>
    have hpost (c : Bool) : armsOf (if c then post (.zone holder) (.released z) s else s) = armsOf s := by cases c <;> rfl
    dsimp only
    split
    · exact hpost _ ▸ armsOf_grantZone z
    · exact .of_eq (hpost _)

theorem armsOf_askRelease (z : Nat) : ArmsSteps (armsOf s) (armsOf (askRelease x z s)) := by
  unfold askRelease
  split
  · split
    · split
      · exact armsOf_releaseZone false z
      · exact .refl
    · exact .refl
  · exact .refl

theorem armsOf_sessionEnd : ArmsStep (armsOf s) (armsOf (clearSession x (onTrigger x restored s))) := by
  rw [clearSession, armsOf_onPcc, armsOf_onTrigger, triggerCode_restored]
  exact .ended x

theorem armsOf_completeSession : ArmsSteps (armsOf s) (armsOf (completeSession x s)) :=
  (armsOf_askRelease (s := post (.change x) (.done (mountedTip s x)) s) 0).tail armsOf_sessionEnd

theorem armsOf_cancelWaiting : ArmsSteps (armsOf s) (armsOf (cancelWaiting x s)) := by
  have hwait : armsOf (withdrawWait x 0 s) = armsOf s := armsOf_withdrawWait s x 0
  exact .single (hwait ▸ armsOf_sessionEnd)

theorem armsOf_enterFault {c : FaultCause} {d : Detail}
    (h : inStep (sessionOf s x) = true ∨ (sessionOf s x).state = .fault) :
    ArmsSteps (armsOf s) (armsOf (enterFault x c d s)) := by
  unfold enterFault
  dsimp only
  split
  · exact .refl
  · have hfault := ArmsStep.fault (a := armsOf s) x c h
    rw [armsOf_post, armsOf_raise, armsOf_onPcc]
    exact .single hfault

theorem armsOf_dropComplete : ArmsSteps (armsOf s) (armsOf (dropComplete x s)) := by
  unfold dropComplete
  split
  · next hdue =>
    have hdrop : (sessionOf s x).state = .drop := by simpa using And.right (by simpa using hdue)
    unfold dropDone
    dsimp only
    split
    · next t p _ _ =>
      have hplaced : armsOf (emptyHistory x (setPort p (.holds t) (moveTip t (.port p) s))) = armsOf s := by simp
      split
      · next hpick =>
        have hnext := ArmsStep.next (a := armsOf s) x hdrop hpick
        rw [armsOf_onSession _ x (g := fun c => { c with state := .pick, timer := some 0 }) (fun _ => rfl),
          armsOf_onPcc_same _ x rfl, hplaced]
        exact .single hnext
      · exact hplaced ▸ armsOf_completeSession
    · exact .refl
  · exact .refl

theorem armsOf_standDown : ArmsSteps (armsOf s) (armsOf (onTrigger x standDown s)) := by
  rw [armsOf_onTrigger]
  have hsame (h : standDown (triggerOf s x) = triggerOf s x) :
      { armsOf s with trigger := Function.update (armsOf s).trigger x (triggerCode (standDown (triggerOf s x))) }
        = armsOf s := by
    rw [h]
    exact congrArg (fun t => { armsOf s with trigger := t }) (Function.update_eq_self x _)
  have hfrom (n : Nat) (hn : n ≠ 4) (h : (armsOf s).trigger x = n) (hd : triggerCode (standDown (triggerOf s x)) = 0) :
      ArmsSteps (armsOf s)
        { armsOf s with trigger := Function.update (armsOf s).trigger x (triggerCode (standDown (triggerOf s x))) } :=
    .single (.trigger x _ (h ▸ hn) (by simp [hd]) (.inl hd))
  cases htrigger : triggerOf s x with
  | armed => exact htrigger ▸ hfrom 1 (by decide) (by simp [armsOf, htrigger, triggerCode]) (by simp [htrigger, standDown, triggerCode])
  | rearm n => exact htrigger ▸ hfrom 3 (by decide) (by simp [armsOf, htrigger, triggerCode]) (by simp [htrigger, standDown, triggerCode])
  | disarmed | latched | suppressed => exact .of_eq (htrigger ▸ hsame (by rw [htrigger]; rfl))

theorem armsOf_losesTip : ArmsSteps (armsOf s) (armsOf (losesTip x s)) := by
  have hempty : armsOf (emptyHistory x s) = armsOf s := armsOf_emptyHistory s x
  rw [losesTip, armsOf_raise, ← hempty]
  exact armsOf_standDown

theorem armsOf_cancelByMismatch : ArmsSteps (armsOf s) (armsOf (cancelByMismatch x s)) := by
  rw [cancelByMismatch, armsOf_raise]
  exact armsOf_cancelWaiting

theorem armsOf_whenDo_steps {f : State → State} (h : ∀ u, ArmsSteps (armsOf u) (armsOf (f u))) (c : Bool) (s : State) :
    ArmsSteps (armsOf s) (armsOf (whenDo c f s)) := by
  unfold whenDo
  split
  · exact h s
  · exact .refl

theorem armsOf_postHead : armsOf (postHead x s) = armsOf s := armsOf_post _ _ _

theorem armsOf_markHead : armsOf (markHead x s) = armsOf s := by
  unfold markHead
  split
  · exact armsOf_onPcc_same s x rfl
  · rfl

theorem armsOf_disturb (m : Nat) (lost headLast : Bool) : ArmsSteps (armsOf s) (armsOf (disturb x m lost headLast s)) := by
  have hhead (u : State) : armsOf (whenDo lost (postHead x) u) = armsOf u := armsOf_whenDo u (fun _ => armsOf_postHead) _
  unfold disturb
  dsimp only
  rw [armsOf_whenDo _ (fun _ => armsOf_markHead)]
  have hends := (armsOf_whenDo_steps (f := losesTip x) (fun _ => armsOf_losesTip) lost s).trans
    (armsOf_whenDo_steps (f := cancelByMismatch x) (fun _ => armsOf_cancelByMismatch) (expectsTip s x m) _)
  split <;> simpa [hhead] using hends

/-- Nothing that a disturbance does reaches the other arm's session. -/
theorem disturb_session (m : Nat) (lost headLast : Bool) :
    sessionOf (disturb x m lost headLast s) (otherArm x) = sessionOf s (otherArm x) := by
  have hother : otherArm x ≠ x := otherArm_ne x
  have htouch {u v : State} (h : Touches [.riu, .rqu, .tbs, .cen, .thu, .tcu, .mgd, .evu] u v) :
      sessionOf v (otherArm x) = sessionOf u (otherArm x) := by
    simp only [sessionOf, State.pccOf, h.pcc (by decide)]
  have hloses (u : State) : sessionOf (whenDo lost (losesTip x) u) (otherArm x) = sessionOf u (otherArm x) :=
    htouch (by unfold whenDo; split <;> simp)
  have hcancel (c : Bool) (u : State) :
      sessionOf (whenDo c (cancelByMismatch x) u) (otherArm x) = sessionOf u (otherArm x) := by
    cases c
    · rfl
    · have hclear (v : State) : sessionOf (raise x .change (clearSession x v)) (otherArm x) = sessionOf v (otherArm x) := by
        simp [sessionOf, clearSession, State.pccOf, State.onPcc, raise]
      exact (hclear _).trans (htouch (by simp))
  have hhead (u : State) : sessionOf (whenDo lost (postHead x) u) (otherArm x) = sessionOf u (otherArm x) :=
    htouch (by unfold whenDo; split <;> simp)
  have hpost (c : Bool) (u : State) :
      sessionOf (whenDo c (post (.change x) .cancelled) u) (otherArm x) = sessionOf u (otherArm x) :=
    htouch (by unfold whenDo; split <;> simp)
  have hmark (u : State) : sessionOf (whenDo lost (markHead x) u) (otherArm x) = sessionOf u (otherArm x) := by
    unfold whenDo markHead
    split_ifs <;> simp [sessionOf, State.pccOf, State.onPcc]
  unfold disturb
  cases headLast <;> simp only [hmark, hhead, hpost, hcancel, hloses, if_true, if_false, Bool.false_eq_true]

theorem armsOf_pickComplete (headLast : Bool) : ArmsSteps (armsOf s) (armsOf (pickComplete x headLast s)) := by
  unfold pickComplete
  split
  · next hdue =>
    have hpick : (sessionOf s x).state = .pick := by simpa using And.right (by simpa using hdue)
    have hstep : inStep (sessionOf s x) = true := by simp [inStep, hpick]
    unfold pickDone
    dsimp only
    split
    · next e p _ _ =>
      split
      · have hplaced : armsOf (emptyHistory x (setPort p .empty (moveTip e (.onArm x) s))) = armsOf s := by simp
        exact hplaced ▸ armsOf_completeSession
      · have hplaced : armsOf (setPort p .empty (moveTip e .unknown s)) = armsOf s := by simp
        exact hplaced ▸ armsOf_enterFault (.inl hstep)
      · next m _ =>
        let u := emptyHistory x (unverifyFormer (tipOf s m).location p
          (setPort p .empty (moveTip e .unknown (moveTip m (.onArm x) s))))
        have hplaced : armsOf u = armsOf s := by simp [u]
        have hsession : sessionOf u x = sessionOf s x := by
          have hempty (v : State) : sessionOf (emptyHistory x v) x = sessionOf v x := by
            simp only [sessionOf, State.pccOf,
              ((emptyHistory_touches (bs := [.cen, .tcu]) x (by simp) (by simp)).2 (Touches.refl _ v)).pcc (by decide)]
          have hformer (l : TipLocation) (v : State) : sessionOf (unverifyFormer l p v) x = sessionOf v x := by
            unfold unverifyFormer
            split
            · split <;> rfl
            · rfl
          exact (hempty _).trans (hformer _ _)
        have hkept (c : Bool) : sessionOf (disturb (otherArm x) m c headLast u) x = sessionOf s x := by
          have h := disturb_session (s := u) (x := otherArm x) m c headLast
          rw [otherArm_otherArm] at h
          exact h.trans hsession
        rw [← hplaced]
        exact (armsOf_disturb m _ headLast).trans (armsOf_enterFault (.inl (by rw [hkept]; exact hstep)))
    · exact .refl
  · exact .refl

/-! ### Triggers and countdowns -/

theorem armsOf_endTouch (l k : Latch) (h : triggerOf s x = .latched k) :
    ArmsSteps (armsOf s) (armsOf (endTouch x l s)) := by
  rw [endTouch, armsOf_onTcu]
  have hlatched : (armsOf s).trigger x = 2 := by simp [armsOf, h, triggerCode]
  refine .single (.trigger x _ (by simp [hlatched]) ?_ (.inr (.inl (by simp [hlatched]))))
  dsimp only
  split <;> simp [triggerCode]

theorem finishTouch_trigger (t : Touch) {u : State}
    (h : u = joinQueue (buildPoint s x t) (numericOnset x (saturatedAxes (roundingMode s) (pointPosition s x t.position)) 0 s)) :
    triggerOf u x = triggerOf s x := by
  subst h
  have hjoin (p : Point) (v : State) : (joinQueue p v).tcu.arm = v.tcu.arm := by
    unfold joinQueue
    split
    · rfl
    · exact congrArg Tcu.arm (((losePoint_touches (bs := [.mgd, .evu]) _ _ _ (by simp) (by simp)).2 (.refl _ v)).tcu (by decide))
  have honset (v : State) (sat : BitVec 3) : (numericOnset x sat 0 v).tcu = v.tcu :=
    ((numericOnset_touches (bs := [.cen, .mgd, .evu]) x sat 0 (by simp) (by simp) (by simp)).2 (.refl _ v)).tcu (by decide)
  simp only [triggerOf, State.tcuOf, hjoin, honset]

theorem armsOf_finishTouch (t : Touch) {k : Latch} (h : triggerOf s x = .latched k) :
    ArmsSteps (armsOf s) (armsOf (finishTouch x t s)) := by
  have hjoined : armsOf (joinQueue (buildPoint s x t)
      (numericOnset x (saturatedAxes (roundingMode s) (pointPosition s x t.position)) 0 s)) = armsOf s := by simp
  exact hjoined ▸ armsOf_endTouch t.latch k ((finishTouch_trigger t rfl).trans h)

theorem armsOf_resolveTouch : ArmsSteps (armsOf s) (armsOf (resolveTouch x s)) := by
  unfold resolveTouch
  split
  · next l _ _ hl _ => exact armsOf_finishTouch _ hl
  · exact .refl

theorem armsOf_lateTouch : ArmsSteps (armsOf s) (armsOf (lateTouch x s)) := by
  unfold lateTouch
  split
  · next l hl =>
    split
    · exact armsOf_finishTouch _ hl
    · have hlose : armsOf (losePoint x l.seq .noPosition s) = armsOf s := armsOf_of_touches s (by simp)
      have htcu : (losePoint x l.seq .noPosition s).tcu = s.tcu :=
        ((losePoint_touches (bs := [.mgd, .evu]) _ _ _ (by simp) (by simp)).2 (.refl _ s)).tcu (by decide)
      exact hlose ▸ armsOf_endTouch l l (by simpa only [triggerOf, State.tcuOf, htcu] using hl)
  · exact .refl

theorem armsOf_rearmExpiry : ArmsSteps (armsOf s) (armsOf (rearmExpiry x s)) := by
  unfold rearmExpiry
  split
  · next h =>
    have hrearm : (armsOf s).trigger x = 3 := by simp [armsOf, h, triggerCode]
    rw [armsOf_setTrigger]
    exact .single (.trigger x _ (by simp [hrearm]) (by decide) (.inr (.inl (by simp [hrearm]))))
  · exact .refl

theorem armsOf_takeEdge : ArmsSteps (armsOf s) (armsOf (takeEdge x s)) := by
  unfold takeEdge
  split
  · exact .of_eq (armsOf_post s _ _)
  · next h =>
    have harmed : (armsOf s).trigger x = 1 := by simp [armsOf, h, triggerCode]
    rw [armsOf_onTcu]
    exact .single (.trigger x _ (by simp [harmed]) (by simp [triggerCode]) (.inr (.inl (by simp [harmed]))))
  · next l h =>
    have hlatched : (armsOf s).trigger x = 2 := by simp [armsOf, h, triggerCode]
    rw [armsOf_setTrigger]
    exact .single (.trigger x _ (by simp [hlatched]) (by simp [triggerCode]) (.inr (.inl (by simp [hlatched]))))
  · exact .refl
  · exact .refl

theorem armsOf_reloadCountdown (h : s.riu.station = .run ∨ (s.thuOf x).countdown.isSome = true) :
    ArmsSteps (armsOf s) (armsOf (reloadCountdown x s)) := by
  rw [reloadCountdown, armsOf_onThu]
  exact .single (.counting x _ (fun _ => h))

theorem armsOf_advance : armsOf (advance x s) = armsOf s := armsOf_onThu_same s x rfl

theorem armsOf_autoAdvance : ArmsSteps (armsOf s) (armsOf (autoAdvance x s)) := by
  unfold autoAdvance
  split
  · next hdue =>
    have hcounting : (s.thuOf x).countdown = some 0 := by simpa [advanceDue] using hdue
    split
    · rw [armsOf_onThu]
      exact .single (.counting x _ (by simp))
    · have hadvance : armsOf (advance x s) = armsOf s := armsOf_advance
      exact hadvance ▸ armsOf_reloadCountdown (.inr (by simp [advance, hcounting]))
  · exact .refl

theorem armsOf_takeDeferred : ArmsSteps (armsOf s) (armsOf (takeDeferred x s)) := by
  unfold takeDeferred
  split
  · have hsame : armsOf ((advance x s).onThu x (fun t => { t with deferred := false })) = armsOf s :=
      (armsOf_onThu_same _ x rfl).trans armsOf_advance
    dsimp only
    split
    · next hrun => exact hsame ▸ armsOf_reloadCountdown (.inl hrun)
    · exact .of_eq hsame
  · exact .refl

/-! ### Station states -/

/-- A state with another station state. -/
def withStation (v : StationState) (s : State) : State := { s with riu := { s.riu with station := v } }

theorem armsOf_withStation (v : StationState) : armsOf (withStation v s) = { armsOf s with station := v } := rfl

theorem armsOf_startCountdown (h : s.riu.station = .run) : ArmsSteps (armsOf s) (armsOf (startCountdown x s)) := by
  unfold startCountdown
  split
  · exact .refl
  · exact armsOf_reloadCountdown (.inl h)

theorem armsOf_enterRun : ArmsSteps (armsOf s) (armsOf (enterRun s)) := by
  unfold enterRun
  have hstation : (startCountdown .a { s with riu := { s.riu with station := .run } }).riu.station = .run := by
    unfold startCountdown
    split <;> rfl
  have hrun := Relation.ReflTransGen.single (ArmsStep.run (a := armsOf s))
  rw [← armsOf_withStation] at hrun
  exact (hrun.trans (armsOf_startCountdown rfl)).trans (armsOf_startCountdown hstation)

/-- The station state shares nothing with what the entry into CONFIG does to an arm. -/
theorem leaveRun_withStation (v : StationState) : leaveRun x (withStation v s) = withStation v (leaveRun x s) := by
  have hsession : sessionOf (withStation v s) x = sessionOf s x := rfl
  have hzone : zoneOf (withStation v s) 0 = zoneOf s 0 := rfl
  unfold leaveRun cancelWaiting withdrawWait
  dsimp only
  rw [hsession, hzone]
  split
  · cases zoneOf s 0 with
    | free => rfl
    | held holder r w => dsimp only; split <;> rfl
  · rfl

/-- R148: the entry into CONFIG, the station state written last. -/
theorem enterConfig_eq : enterConfig s = addMode (withStation .config (leaveRun .b (leaveRun .a s))) := by
  have hstart : enterConfig s = addMode (leaveRun .b (leaveRun .a (withStation .config s))) := rfl
  rw [hstart, leaveRun_withStation, leaveRun_withStation]

/-- An arm at rest: its trigger DISARMED or SUPPRESSED, its session IDLE or in FAULT, its countdown stopped (R148). -/
def AtRest (a : Arms) (x : Arm) : Prop :=
  (a.trigger x = 0 ∨ a.trigger x = 4) ∧ ((a.session x).state = .idle ∨ (a.session x).state = .fault) ∧ a.counting x = false

theorem armsOf_leaveRun : ArmsSteps (armsOf s) (armsOf (leaveRun x s)) := by
  unfold leaveRun
  dsimp only
  rw [armsOf_onThu]
  refine Relation.ReflTransGen.tail (b := armsOf (onTrigger x standDown
    (if (sessionOf s x).state = .waitZone then cancelWaiting x s else s))) ?_ (.counting x _ (by simp))
  split
  · exact armsOf_cancelWaiting.trans armsOf_standDown
  · exact armsOf_standDown

theorem cancelWaiting_self :
    triggerOf (cancelWaiting x s) x = restored (triggerOf s x) ∧ sessionOf (cancelWaiting x s) x = Session.idle := by
  have htcu : (withdrawWait x 0 s).tcu = s.tcu :=
    ((withdrawWait_touches (bs := [.mgd]) x 0 (by simp)).2 (.refl _ s)).tcu (by decide)
  constructor
  · simp [cancelWaiting, clearSession, onTrigger, triggerOf, State.tcuOf, State.onTcu, htcu]
  · simp [cancelWaiting, clearSession, sessionOf]

/-- What ends a waiting session of one arm leaves the other arm's session, trigger and thermal state. -/
theorem cancelWaiting_other {y : Arm} (h : y ≠ x) :
    triggerOf (cancelWaiting x s) y = triggerOf s y ∧ sessionOf (cancelWaiting x s) y = sessionOf s y
      ∧ (cancelWaiting x s).thu = s.thu := by
  have hwait : Touches [.mgd] s (withdrawWait x 0 s) := (withdrawWait_touches x 0 (by simp)).2 (.refl _ s)
  refine ⟨?_, ?_, hwait.thu (by decide)⟩
  · simp [cancelWaiting, clearSession, onTrigger, triggerOf, State.tcuOf, State.onTcu,
      get_modify_other _ _ h, hwait.tcu (by decide)]
  · simp [cancelWaiting, clearSession, onTrigger, sessionOf, State.pccOf, State.onPcc, get_modify_other _ _ h,
      hwait.pcc (by decide)]

theorem leaveRun_other {y : Arm} (h : y ≠ x) :
    triggerOf (leaveRun x s) y = triggerOf s y ∧ sessionOf (leaveRun x s) y = sessionOf s y
      ∧ (leaveRun x s).thuOf y = s.thuOf y := by
  obtain ⟨htrigger, hsession, hthu⟩ := cancelWaiting_other (s := s) h
  unfold leaveRun
  dsimp only
  rw [onThu_thuOf_other _ _ h]
  have hkeeps (u : State) : triggerOf (((onTrigger x standDown u).onThu x (fun t => { t with countdown := none }))) y
      = triggerOf u y ∧ sessionOf (((onTrigger x standDown u).onThu x (fun t => { t with countdown := none }))) y
      = sessionOf u y := ⟨congrArg TcuArm.trigger (onTcu_tcuOf_other u _ h), rfl⟩
  split
  · exact ⟨(hkeeps _).1.trans htrigger, (hkeeps _).2.trans hsession, congrArg (fun t => t.arm.get y) hthu⟩
  · exact ⟨(hkeeps _).1, (hkeeps _).2, rfl⟩

theorem armsOf_leaveRun_other {y : Arm} (h : y ≠ x) (hrest : AtRest (armsOf s) y) : AtRest (armsOf (leaveRun x s)) y := by
  obtain ⟨htrigger, hsession, hthu⟩ := leaveRun_other (s := s) h
  simpa only [AtRest, armsOf, htrigger, hsession, hthu] using hrest

theorem triggerCode_standDown {t : Trigger} (h : isLatched t = false) :
    triggerCode (standDown t) = 0 ∨ triggerCode (standDown t) = 4 := by
  cases t with
  | latched l => cases h
  | disarmed | armed | rearm => exact .inl rfl
  | suppressed => exact .inr rfl

theorem atRest_leaveRun (hlatched : armLatched s x = false) (hstep : inStep (sessionOf s x) = false) :
    AtRest (armsOf (leaveRun x s)) x := by
  have hself (u : State) : AtRest (armsOf ((onTrigger x standDown u).onThu x (fun t => { t with countdown := none }))) x
      ↔ (triggerCode (standDown (triggerOf u x)) = 0 ∨ triggerCode (standDown (triggerOf u x)) = 4)
        ∧ ((sessionOf u x).state = .idle ∨ (sessionOf u x).state = .fault) := by
    rw [armsOf_onThu, armsOf_onTrigger]
    simp [AtRest, armsOf, untimed]
  unfold leaveRun
  dsimp only
  rw [hself]
  split
  · obtain ⟨htrigger, hsession⟩ := cancelWaiting_self (s := s) (x := x)
    rw [htrigger, hsession]
    refine ⟨triggerCode_standDown ?_, .inl rfl⟩
    simp only [armLatched] at hlatched
    cases htrig : triggerOf s x <;> simp_all [isLatched, restored]
  · next hwait =>
    refine ⟨triggerCode_standDown hlatched, ?_⟩
    cases hstate : (sessionOf s x).state <;> simp_all [inStep]

theorem armsOf_enterConfig (hlatched : ∀ x, armLatched s x = false) (hstep : ∀ x, inStep (sessionOf s x) = false) :
    ArmsSteps (armsOf s) (armsOf (enterConfig s)) := by
  have hrest (x : Arm) : AtRest (armsOf (leaveRun .b (leaveRun .a s))) x := by
    cases x with
    | a => exact armsOf_leaveRun_other (by decide) (atRest_leaveRun (hlatched .a) (hstep .a))
    | b =>
      obtain ⟨htrigger, hsession, -⟩ := leaveRun_other (s := s) (x := .a) (y := .b) (by decide)
      exact atRest_leaveRun (by rw [armLatched, htrigger]; exact hlatched .b) (by rw [hsession]; exact hstep .b)
  rw [enterConfig_eq, addMode, armsOf_raise, armsOf_raise, armsOf_withStation]
  exact (armsOf_leaveRun.trans armsOf_leaveRun).tail (.rest .config (.inr hrest))

end

end Sys2Proof.Proofs
end

section
/-! The moves as steps of the arms' control, and the invariants of that control (O4, O5, O6). -/
namespace Sys2Proof.Proofs

open Sys2Proof.Machine Sys2Proof.Laws

/-! ### Owners -/

section
variable {s : State} {x : Arm}

theorem armsOf_evictTip (p : Nat) (v : PortState) : armsOf (evictTip p v s) = armsOf s := by
  unfold evictTip
  split
  · split <;> rfl
  · rfl

theorem armsOf_placeTip (p : Nat) (v : PortState) : armsOf (placeTip p v s) = armsOf s := by
  unfold placeTip
  split <;> rfl

theorem armsOf_dismount : armsOf (dismount x s) = armsOf s := by
  unfold dismount
  split <;> rfl

theorem armsOf_mount (t : Nat) : armsOf (mount x t s) = armsOf s := by
  unfold mount
  split <;> rfl

theorem armsOf_activate (k : TableKind) : armsOf (activate k s) = armsOf s := by
  unfold activate activationEffect
  rw [armsOf_post]
  cases k with
  | armMap x => exact armsOf_emptyHistory _ x
  | stationRecord => dsimp only; split <;> rfl
  | slotMap | channelTable | zoneTable => rfl

theorem armsOf_warmReset : armsOf (warmReset s) = ⟨.config, fun _ => 0, fun _ => Session.idle, fun _ => false⟩ := by
  unfold warmReset addMode
  rw [armsOf_raise, armsOf_raise]
  simp only [armsOf, Arms.mk.injEq, true_and]
  exact ⟨funext fun y => by cases y <;> rfl, funext fun y => by cases y <;> rfl, funext fun y => by cases y <;> rfl⟩

theorem armsOf_powerOn (a b : Bool) :
    armsOf (powerOn a b s) = ⟨.unaddressed, fun _ => 0, fun _ => Session.idle, fun _ => false⟩ := by
  simp only [armsOf, Arms.mk.injEq]
  exact ⟨rfl, funext fun y => by cases y <;> rfl, funext fun y => by cases y <;> rfl, funext fun y => by cases y <;> rfl⟩

theorem armsOf_onTrigger_armed (hrun : s.riu.station = .run) (h : triggerOf s x ≠ .suppressed) :
    ArmsSteps (armsOf s) (armsOf (onTrigger x armedBy s)) := by
  rw [armsOf_onTrigger]
  refine .single (.trigger x _ (by simpa [armsOf, triggerCode_eq_four] using h) ?_ (.inr (.inr hrun)))
  rw [Ne, triggerCode_eq_four]
  cases htrigger : triggerOf s x <;> simp_all [armedBy]

/-- R53: the trigger of an arm that has none LATCHED is suppressed. -/
theorem suppressed_eq {t : Trigger} (h : isLatched t = false) : suppressed t = .suppressed := by
  cases t with
  | latched l => cases h
  | _ => rfl

/-- The session that a CHANGE_BEGIN fills in (R82). -/
theorem armsOf_beginSession {drop pick : Option Nat} (hrun : s.riu.station = .run)
    (hlatched : armLatched s x = false) (hdrop : dropFits s x drop = true) (hpick : pickFits s pick = true)
    (hsome : ¬ (drop = none ∧ pick = none)) : ArmsSteps (armsOf s) (armsOf (beginSession x drop pick s)) := by
  let filled : Session := ⟨.waitZone, mountedTip s x, drop, pick, pick.bind (portHolding s), none, none⟩
  let u := onTrigger x suppressed (s.onPcc x (fun p => { p with session := filled, consistent := true }))
  have hd : (mountedTip s x).isSome = drop.isSome := by
    unfold dropFits at hdrop
    cases hm : mountedTip s x <;> cases drop <;> simp_all
  have hp : pick.isSome = (pick.bind (portHolding s)).isSome := by
    unfold pickFits at hpick
    cases pick <;> simp_all
  have hbegin := ArmsStep.begin (a := armsOf s) x (mountedTip s x) drop pick (pick.bind (portHolding s)) hrun hd hp (by
    rw [hd]; cases drop <;> cases pick <;> simp_all)
  have hu : armsOf u = { armsOf s with
      trigger := Function.update (armsOf s).trigger x 4,
      session := Function.update (armsOf s).session x filled } := by
    have htrigger : suppressed (triggerOf (s.onPcc x (fun p => { p with session := filled, consistent := true })) x)
        = .suppressed := suppressed_eq hlatched
    rw [armsOf_onTrigger, htrigger, armsOf_onPcc]
    rfl
  have hclaim : armsOf (applyClaim x 0 u) = armsOf u := armsOf_applyClaim u x 0
  have hwait : (sessionOf (applyClaim x 0 u) x).state = .waitZone := by
    have hpcc : (applyClaim x 0 u).pcc = u.pcc := ((applyClaim_touches (bs := [.mgd]) x 0 (by simp)).2 (.refl _ u)).pcc (by decide)
    have hsession : sessionOf u x = filled := by simp [u, sessionOf, onTrigger, State.pccOf, State.onPcc]
    rw [sessionOf, State.pccOf, hpcc]
    exact congrArg Session.state hsession
  have hfirst : ArmsSteps (armsOf s) (armsOf (applyClaim x 0 u)) := by
    rw [hclaim, hu]
    exact .single hbegin
  unfold beginSession
  dsimp only
  split
  · exact hfirst.trans (armsOf_enterStep hwait)
  · exact hfirst

theorem armsOf_abortStep : ArmsSteps (armsOf s) (armsOf (abortStep x s)) := by
  unfold abortStep
  dsimp only
  have hposted : armsOf (post (.change x) (.aborted (sessionOf s x).state)
      (whenDo (decide ((sessionOf s x).state ≠ .fault)) (raise x .abort) s)) = armsOf s := by simp
  exact hposted ▸ (armsOf_askRelease 0).tail armsOf_sessionEnd

theorem ArmsSteps.withArm {v : Byte} {f : Arm → State → Served} (h : ∀ x, ArmsSteps (armsOf s) (armsOf (f x s).state)) :
    ArmsSteps (armsOf s) (armsOf (withArm v f s).state) :=
  withArm_keeps (Q := fun u => ArmsSteps (armsOf s) (armsOf u)) .refl h

theorem ArmsSteps.afterChecks {checks : List (Bool × Result)} {f : State → Served}
    (h : firstRefusal checks = none → ArmsSteps (armsOf s) (armsOf (f s).state)) :
    ArmsSteps (armsOf s) (armsOf (afterChecks checks f s).state) :=
  afterChecks_keeps (Q := fun u => ArmsSteps (armsOf s) (armsOf u)) .refl h

/-- Checks that refuse nothing all pass. -/
theorem firstRefusal_eq_none {checks : List (Bool × Result)} : firstRefusal checks = none ↔ ∀ c ∈ checks, c.1 = false := by
  induction checks with
  | nil => simp [firstRefusal]
  | cons c cs ih => cases hc : c.1 <;> simp [firstRefusal, hc, ih]

theorem ArmsSteps.stationMode (w : Word) : ArmsSteps (armsOf s) (armsOf (ownStationMode w s).state) := by
  unfold ownStationMode
  split_ifs with _ _ _ _ _ hbusy
  · exact .refl
  · exact .refl
  · exact armsOf_enterRun
  · exact .refl
  · exact .refl
  · simp only [Bool.not_eq_true, Bool.or_eq_false_iff] at hbusy
    obtain ⟨⟨⟨hla, hlb⟩, hsa⟩, hsb⟩ := hbusy
    exact armsOf_enterConfig (forall_arm.2 ⟨hla, hlb⟩) (forall_arm.2 ⟨hsa, hsb⟩)
  · exact .refl

theorem ArmsSteps.triggerDisarm (a : Byte) : ArmsSteps (armsOf s) (armsOf (ownTriggerDisarm a s).state) := by
  refine .withArm (fun x => ?_)
  have hset (n : Nat) (hcode : triggerCode (triggerOf s x) = n) (hn : n ≠ 4) :
      ArmsSteps (armsOf s) (armsOf (setTrigger x .disarmed s)) := by
    rw [armsOf_setTrigger]
    exact .single (.trigger x 0 (by rw [show (armsOf s).trigger x = n from hcode]; exact hn) (by decide) (.inl rfl))
  split
  · exact .refl
  · next h => exact hset 1 (by rw [h]; rfl) (by decide)
  · next h => exact hset 3 (by rw [h]; rfl) (by decide)
  · next l h =>
    refine .of_eq (armsOf_onTcu_same s x ?_)
    have htrigger : (s.tcuOf x).trigger = .latched l := h
    simp [htrigger, markDisarm, triggerCode]
  · exact .refl

theorem ArmsSteps.changeBegin (a : Byte) (d p : Word) : ArmsSteps (armsOf s) (armsOf (ownChangeBegin a d p s).state) := by
  refine .withArm (fun x => .afterChecks (fun hchecks => ?_))
  simp only [firstRefusal_eq_none, changeChecks, List.forall_mem_cons] at hchecks
  obtain ⟨hrun, -, hfree, hdrop, hpick, -, hsome, -⟩ := hchecks
  simp only [Bool.not_eq_false', Bool.and_eq_true, Bool.not_eq_true'] at hfree hdrop hpick
  obtain ⟨-, hlatched⟩ := hfree
  exact armsOf_beginSession (by simpa using hrun) hlatched hdrop hpick (fun hnone => by simp [hnone] at hsome)

theorem Owner.arms {c : RequestCode} {own : State → Served} (ho : Owner c own) (hs : InService s)
    (hc : s.riu.station = .config → refusedInConfig c = false) : ArmsSteps (armsOf s) (armsOf (own s).state) := by
  have hrun (h : refusedInConfig c = true) : s.riu.station = .run := by
    obtain ⟨-, haddressed⟩ := hs
    cases hstation : s.riu.station with
    | unaddressed => exact absurd hstation haddressed
    | config => simp [hc hstation] at h
    | run => rfl
  cases ho with
  | stationMode w => exact .stationMode w
  | stationReset =>
    have hreset : armsOf (ownStationReset s).state = _ := armsOf_warmReset
    rw [hreset]
    exact .single (.reset .config)
  | statusRead a b c => unfold ownStatusRead; split <;> exact .refl
  | tableWrite | tableClear | tableCheck =>
    exact .of_eq (armsOf_of_touches s (withKind_touches (fun k => afterChecks_touches (by simp [served]))))
  | tableActivate k =>
    refine withKind_keeps (Q := fun u => ArmsSteps (armsOf s) (armsOf u)) .refl (fun k => .afterChecks (fun _ => ?_))
    dsimp only
    split
    · exact .of_eq (armsOf_post _ _ _)
    · exact .of_eq (armsOf_activate k)
  | tableRead k b o =>
    refine withKind_keeps (Q := fun u => ArmsSteps (armsOf s) (armsOf u)) .refl (fun k => ?_)
    dsimp only
    split_ifs <;> try exact .refl
    split <;> exact .refl
  | tipSet | tipRemove | workpieceSet | workpieceClear | eventPriority | reportLevel => exact .afterChecks (fun _ => .refl)
  | portSet p v t =>
    refine .afterChecks (fun _ => ?_)
    split
    · next target _ =>
      have hport (u : State) : armsOf (setPort p.toNat target u) = armsOf u := armsOf_setPort u _ _
      exact .of_eq ((armsOf_clearRack _ _).trans ((hport _).trans ((armsOf_placeTip _ _).trans (armsOf_evictTip _ _))))
    · exact .refl
  | armTipSet a t =>
    exact .withArm (fun x => .afterChecks (fun _ =>
      .of_eq ((armsOf_emptyHistory _ x).trans ((armsOf_mount _).trans armsOf_dismount))))
  | triggerArm a =>
    refine .withArm (fun x => .afterChecks (fun hchecks => armsOf_onTrigger_armed (hrun rfl) ?_))
    simp only [firstRefusal_eq_none, List.forall_mem_cons, Bool.or_eq_false_iff, decide_eq_false_iff_not] at hchecks
    exact hchecks.2.1.2
  | triggerDisarm a => exact .triggerDisarm a
  | featureOpen a => exact .withArm (fun x => .afterChecks (fun _ => .of_eq (armsOf_onTcu_same s x rfl)))
  | featureClose a =>
    refine .withArm (fun x => ?_)
    split_ifs
    · exact .refl
    · have hclosed : armsOf (s.onTcu x (fun u => { u with bracketOpen := false })) = armsOf s := armsOf_onTcu_same s x rfl
      exact hclosed ▸ armsOf_takeDeferred
    · exact .refl
  | thermalAdvance a =>
    refine .withArm (fun x => .afterChecks (fun _ => ?_))
    have hadvance : armsOf (advance x s) = armsOf s := armsOf_advance
    exact hadvance ▸ armsOf_reloadCountdown (.inl (hrun rfl))
  | zoneClaim a z => exact .withArm (fun x => .afterChecks (fun _ => .of_eq (armsOf_applyClaim s x _)))
  | zoneRelease a z =>
    refine .withArm (fun x => .afterChecks (fun _ => ?_))
    unfold releaseBy
    split_ifs
    · exact armsOf_askRelease _
    · exact .of_eq (armsOf_withdrawWait s x _)
    · exact .refl
  | holdRelease a r => exact .withArm (fun x => .afterChecks (fun _ => .of_eq rfl))
  | changeBegin a d p => exact .changeBegin a d p
  | changeAbort a =>
    refine .withArm (fun x => ?_)
    split
    · exact .refl
    · exact (armsOf_cancelWaiting (s := s) (x := x)).trans (ArmsSteps.of_eq (armsOf_post _ _ _))
    · exact armsOf_abortStep

end

/-- Every move is a sequence of steps of the arms' control. -/
theorem Move.arms {s t : State} (hm : Move s t) : ArmsSteps (armsOf s) (armsOf t) := by
  cases hm with
  | line v hv => exact .of_eq (armsOf_riu s hv.station)
  | missed | turned | record | ringBegin | ringEnd | exchange | drainMark | unfresh | refreshMap | checks => exact .of_eq rfl
  | post => exact .of_eq (armsOf_post s _ _)
  | touchMark x => exact .of_eq (armsOf_onTcu_same s x rfl)
  | changeMark x => exact .of_eq (armsOf_onPcc_same s x rfl)
  | drain => exact .of_eq (armsOf_drainPoints s)
  | resolve x => exact armsOf_resolveTouch
  | late x => exact armsOf_lateTouch
  | drop x => exact armsOf_dropComplete
  | pick x headLast => exact armsOf_pickComplete headLast
  | release z =>
    unfold deferredRelease
    split
    · exact armsOf_releaseZone true z
    · exact .refl
  | rearm x => exact armsOf_rearmExpiry
  | autoAdvance x => exact armsOf_autoAdvance
  | fault x c d h => exact armsOf_enterFault h
  | edge x => exact armsOf_takeEdge
  | tickRearm x => exact .of_eq (armsOf_tickRearm s x)
  | tickStep x => exact .of_eq (armsOf_tickStep s x)
  | tickCountdown x => exact .of_eq (armsOf_tickCountdown s x)
  | thermal => exact .of_eq (armsOf_takeThermal s _ _ _)
  | correct x input => exact .of_eq (armsOf_correctArm s x input)
  | status x input => exact .of_eq (armsOf_readStatus s x input)
  | rack => exact .of_eq (armsOf_takeRack s _ _ _)
  | address a h =>
    have htaken : armsOf (takeAddress a s) = { armsOf s with station := .config } := by
      unfold takeAddress addMode
      rw [armsOf_raise, armsOf_raise]
      rfl
    exact htaken ▸ .single (.rest .config (.inl (by rw [show (armsOf s).station = .unaddressed from h]; decide)))
  | powerOn a b => exact armsOf_powerOn a b ▸ .single (.reset .unaddressed)
  | serve ho hs hc => exact ho.arms hs hc
  | check | numeric | limits | monitor | select => exact .of_eq (armsOf_of_touches s (by simp))

theorem ArmsSteps.keeps {P : Arms → Prop} (hP : ∀ {a b}, ArmsStep a b → P a → P b) {a b : Arms} (h : ArmsSteps a b)
    (ha : P a) : P b := by
  induction h with
  | refl => exact ha
  | tail _ hstep ih => exact hP hstep ih

/-- A predicate of the arms' control that its steps keep is kept by every step of the block. -/
theorem step_keeps_arms {P : Arms → Prop} (hP : ∀ {a b}, ArmsStep a b → P a → P b) {s t : State} (hs : P (armsOf s))
    (h : step s = .next t) : P (armsOf t) :=
  step_keeps (P := fun u => P (armsOf u)) (fun _ _ => id) (fun hm hu => hm.arms.keeps hP hu) hs h

/-! ### The invariants -/

/-- What holds of every arm after one arm's value is replaced. -/
theorem forall_update {α : Type} {Q : Arm → α → Prop} {f : Arm → α} {x : Arm} {v : α} (hf : ∀ y, Q y (f y)) (hv : Q x v)
    (y : Arm) : Q y (Function.update f x v y) := by
  by_cases h : y = x
  · subst h; simpa using hv
  · simpa [Function.update_of_ne h] using hf y

/-- R53: SUPPRESSED exactly with a session that is not IDLE. -/
def Suppression (a : Arms) : Prop := ∀ x, a.trigger x = 4 ↔ (a.session x).state ≠ .idle

theorem suppression_step {a b : Arms} (hstep : ArmsStep a b) (h : Suppression a) : Suppression b := by
  have hsession {x : Arm} {c : Session} (hidle : (a.session x).state ≠ .idle) (hc : c.state ≠ .idle) (y : Arm) :
      a.trigger y = 4 ↔ (Function.update a.session x c y).state ≠ .idle :=
    forall_update (Q := fun y (c : Session) => a.trigger y = 4 ↔ c.state ≠ .idle) h
      ⟨fun _ => hc, fun _ => (h x).2 hidle⟩ y
  cases hstep with
  | enter y hw => exact hsession (by simp [hw]) (by dsimp only; split <;> simp)
  | next x hd => exact hsession (by simp [hd]) (by simp)
  | fault x c hf =>
    exact hsession (by intro hidle; simp [inStep, hidle] at hf) (by simp)
  | ended x =>
    intro y
    by_cases hy : y = x
    · subst hy; simp [restoredCode, Session.idle]; split <;> simp_all
    · simpa [hy] using h y
  | begin x =>
    intro y
    by_cases hy : y = x
    · subst hy; simp
    · simpa [hy] using h y
  | trigger x n hs hn =>
    intro y
    by_cases hy : y = x
    · subst hy
      have hidle := (h y).not.1 hs
      simp_all
    · simpa [hy] using h y
  | counting | run | rest => exact h
  | reset => intro y; simp [Session.idle]

/-- Settles O4: every step of the arms' control keeps it. -/
theorem stepKeepsSuppression : Obligations.StepKeepsSuppression := by
  unfold Obligations.StepKeepsSuppression
  intro s t hs h
  have hiff (u : State) : SuppressedWithSession u ↔ Suppression (armsOf u) :=
    forall_congr' fun x => iff_congr triggerCode_eq_four.symm Iff.rfl
  exact (hiff t).2 (step_keeps_arms suppression_step ((hiff s).1 hs) h)

/-- R148: outside RUN both arms are at rest. -/
def RestingOutsideRun (a : Arms) : Prop := a.station ≠ .run → ∀ x, AtRest a x

theorem restingOutsideRun_step {a b : Arms} (hstep : ArmsStep a b) (h : RestingOutsideRun a) : RestingOutsideRun b := by
  intro hrun y
  cases hstep with
  | enter z hw =>
    obtain ⟨-, hsession, -⟩ := h hrun z
    simp [hw] at hsession
  | next x hd =>
    obtain ⟨-, hsession, -⟩ := h hrun x
    simp [hd] at hsession
  | fault x c hf =>
    obtain ⟨htrigger, hsession, hcounting⟩ := h hrun y
    refine ⟨htrigger, ?_, hcounting⟩
    by_cases hy : y = x
    · subst hy; simp
    · simpa [hy] using hsession
  | ended x =>
    obtain ⟨htrigger, hsession, hcounting⟩ := h hrun y
    refine ⟨?_, ?_, hcounting⟩
    · by_cases hy : y = x
      · subst hy; simp [restoredCode]; tauto
      · simpa [hy] using htrigger
    · by_cases hy : y = x
      · subst hy; simp [Session.idle]
      · simpa [hy] using hsession
  | begin x _ _ _ _ hin => exact absurd hin hrun
  | trigger x n hs hn hrest =>
    obtain ⟨htrigger, hsession, hcounting⟩ := h hrun y
    refine ⟨?_, hsession, hcounting⟩
    by_cases hy : y = x
    · subst hy; simp; tauto
    · simpa [hy] using htrigger
  | counting x v hv =>
    obtain ⟨htrigger, hsession, hcounting⟩ := h hrun y
    refine ⟨htrigger, hsession, ?_⟩
    by_cases hy : y = x
    · subst hy; simp; cases v <;> simp_all
    · simpa [hy] using hcounting
  | run => exact absurd rfl hrun
  | rest v hv =>
    obtain hout | hrests := hv
    · exact h hout y
    · exact hrests y
  | reset => exact ⟨.inl rfl, .inl rfl, rfl⟩

/-- Settles O5: every step of the arms' control keeps it. -/
theorem stepKeepsRestsOutsideRun : Obligations.StepKeepsRestsOutsideRun := by
  unfold Obligations.StepKeepsRestsOutsideRun
  intro s t hs h
  have hiff (u : State) : RestsOutsideRun u ↔ RestingOutsideRun (armsOf u) :=
    imp_congr Iff.rfl (forall_congr' fun x => and_congr (or_congr triggerCode_eq_zero.symm triggerCode_eq_four.symm)
      (and_congr Iff.rfl (by simp [armsOf])))
  exact (hiff t).2 (step_keeps_arms restingOutsideRun_step ((hiff s).1 hs) h)

/-- R80, R82, R84, R89: a session record whose fields fit its state. -/
structure FieldsFit (c : Session) : Prop where
  idle  : c.state = .idle → c = Session.idle
  timer : c.timer.isSome = inStep c
  fault : c.fault.isSome = true ↔ c.state = .fault
  drops : c.dropTip.isSome = c.dropPort.isSome
  picks : c.pickTip.isSome = c.pickPort.isSome
  waits : c.state = .waitZone → c.dropTip.isSome = true ∨ c.pickTip.isSome = true
  drop  : c.state = .drop → c.dropTip.isSome = true
  pick  : c.state = .pick → c.pickTip.isSome = true

theorem fieldsFit_idle : FieldsFit Session.idle := ⟨fun _ => rfl, rfl, by decide, rfl, rfl, by decide, by decide, by decide⟩

theorem fieldsFit_untimed {c : Session} : FieldsFit (untimed c) ↔ FieldsFit c := by
  have hidle : untimed c = Session.idle ↔ c = Session.idle := by
    obtain ⟨_, _, _, _, _, timer, _⟩ := c
    cases timer <;> simp [untimed, Session.idle]
  have htimer : (untimed c).timer.isSome = c.timer.isSome := by simp [untimed]
  constructor <;> rintro ⟨h1, h2, h3, h4, h5, h6, h7, h8⟩
  · exact ⟨fun h => hidle.1 (h1 h), htimer.symm.trans h2, h3, h4, h5, h6, h7, h8⟩
  · exact ⟨fun h => hidle.2 (h1 h), htimer.trans h2, h3, h4, h5, h6, h7, h8⟩

theorem fieldsFit_enter {c : Session} (h : FieldsFit c) (hw : c.state = .waitZone) (n : Nat) :
    FieldsFit { c with state := if c.dropTip.isSome then .drop else .pick, timer := some n } := by
  have hfault : c.fault.isSome = false := by simpa [hw] using h.fault
  have hwaits := h.waits hw
  cases hd : c.dropTip.isSome with
  | true => exact ⟨by simp, by simp [inStep], by simp [hfault], h.drops, h.picks, by simp, fun _ => hd, by simp⟩
  | false =>
    exact ⟨by simp, by simp [inStep], by simp [hfault], h.drops, h.picks, by simp, by simp, fun _ => by simpa [hd] using hwaits⟩

theorem fieldsFit_step {a b : Arms} (hstep : ArmsStep a b) (h : ∀ x, FieldsFit (a.session x)) :
    ∀ x, FieldsFit (b.session x) := by
  cases hstep with
  | enter y hw => exact forall_update (Q := fun _ c => FieldsFit c) h (fieldsFit_enter (h y) hw 0)
  | next x hd hp =>
    have hfault : (a.session x).fault.isSome = false := by simpa [hd] using (h x).fault
    exact forall_update (Q := fun _ c => FieldsFit c) h
      ⟨by simp, by simp [inStep], by simp [hfault], (h x).drops, (h x).picks, by simp, by simp, fun _ => hp⟩
  | fault x c =>
    exact forall_update (Q := fun _ c => FieldsFit c) h
      ⟨by simp, by simp [inStep], by simp, (h x).drops, (h x).picks, by simp, by simp, by simp⟩
  | ended x => exact forall_update (Q := fun _ c => FieldsFit c) h fieldsFit_idle
  | begin x _ _ _ _ _ hd hp hsome =>
    exact forall_update (Q := fun _ c => FieldsFit c) h
      ⟨by simp, by simp [inStep], by simp, hd, hp, fun _ => hsome, by simp, by simp⟩
  | trigger | counting | run | rest => exact h
  | reset => exact fun _ => fieldsFit_idle

/-- Settles O6: every step of the arms' control keeps it. -/
theorem stepKeepsSessionFields : Obligations.StepKeepsSessionFields := by
  unfold Obligations.StepKeepsSessionFields
  intro s t hs h
  have hiff (u : State) : SessionFieldsFit u ↔ ∀ x, FieldsFit ((armsOf u).session x) := by
    refine forall_congr' fun x => Iff.trans ?_ fieldsFit_untimed.symm
    exact ⟨fun ⟨h1, h2, h3, h4, h5, h6, h7, h8⟩ => ⟨h1, h2, h3, h4, h5, h6, h7, h8⟩,
      fun ⟨h1, h2, h3, h4, h5, h6, h7, h8⟩ => ⟨h1, h2, h3, h4, h5, h6, h7, h8⟩⟩
  exact (hiff t).2 (step_keeps_arms (P := fun a => ∀ x, FieldsFit (a.session x)) fieldsFit_step ((hiff s).1 hs) h)

end Sys2Proof.Proofs
end

section
/-! The holds that stand (O8): the station state, ring loss, the address, and the causes MODE and RING of each arm. -/
namespace Sys2Proof.Proofs

open Sys2Proof.Machine Sys2Proof.Laws

/-- The station state, ring loss and the address, and on each arm whether MODE and whether RING stands. -/
structure Holds where
  station  : StationState
  ringLoss : Bool
  address  : Option Byte
  mode     : Arm → Bool
  ring     : Arm → Bool

/-- The holds of a state. -/
def holdsOf (s : State) : Holds where
  station := s.riu.station
  ringLoss := s.riu.ringLoss
  address := s.riu.address
  mode := fun x => hasCause (s.mgdOf x).causes .mode
  ring := fun x => hasCause (s.mgdOf x).causes .ring

section
variable (s : State) (x : Arm)

/-! ### Functions that leave the holds as they are -/

theorem holdsOf_of_touches {t : State} (h : Touches [.rqu, .tbs, .cen, .thu, .tcu, .pcc, .evu] s t) :
    holdsOf t = holdsOf s := by
  simp only [holdsOf, State.mgdOf, h.riu (by decide), h.mgd (by decide)]

theorem holdsOf_riu {v : Riu} (hs : v.station = s.riu.station) (hr : v.ringLoss = s.riu.ringLoss)
    (ha : v.address = s.riu.address) : holdsOf { s with riu := v } = holdsOf s := by
  simp only [holdsOf, hs, hr, ha]
  rfl

@[simp] theorem holdsOf_onCen (f : CenArm → CenArm) : holdsOf (s.onCen x f) = holdsOf s := holdsOf_of_touches s (by simp)

@[simp] theorem holdsOf_onThu (f : ThuArm → ThuArm) : holdsOf (s.onThu x f) = holdsOf s := holdsOf_of_touches s (by simp)

@[simp] theorem holdsOf_onTcu (f : TcuArm → TcuArm) : holdsOf (s.onTcu x f) = holdsOf s := holdsOf_of_touches s (by simp)

@[simp] theorem holdsOf_onPcc (f : PccArm → PccArm) : holdsOf (s.onPcc x f) = holdsOf s := holdsOf_of_touches s (by simp)

@[simp] theorem holdsOf_onTbs (k : TableKind) (f : TableState → TableState) : holdsOf (s.onTbs k f) = holdsOf s :=
  holdsOf_of_touches s (by simp)

@[simp] theorem holdsOf_post (src : EventSource) (d : Detail) : holdsOf (post src d s) = holdsOf s :=
  holdsOf_of_touches s (by simp)

theorem holdsOf_onMgd {f : MgdArm → MgdArm}
    (hm : ∀ g, hasCause (f g).causes .mode = hasCause g.causes .mode)
    (hr : ∀ g, hasCause (f g).causes .ring = hasCause g.causes .ring) : holdsOf (s.onMgd x f) = holdsOf s := by
  have hmode : (fun y => hasCause ((s.onMgd x f).mgdOf y).causes .mode) = fun y => hasCause (s.mgdOf y).causes .mode :=
    funext fun y => modify_part (g := fun g : MgdArm => hasCause g.causes .mode) hm s.mgd.arm x y
  have hring : (fun y => hasCause ((s.onMgd x f).mgdOf y).causes .ring) = fun y => hasCause (s.mgdOf y).causes .ring :=
    funext fun y => modify_part (g := fun g : MgdArm => hasCause g.causes .ring) hr s.mgd.arm x y
  simp only [holdsOf, hmode, hring]
  rfl

theorem hasCause_addCause_ne {cs : BitVec 12} {c d : Cause} (h : c ≠ d) :
    hasCause (addCause cs d) c = hasCause cs c := by
  rw [Bool.eq_iff_iff, hasCause_addCause]
  exact or_iff_left h

theorem hasCause_addCause_self (cs : BitVec 12) (c : Cause) : hasCause (addCause cs c) c = true :=
  hasCause_addCause.2 (.inr rfl)

@[simp] theorem holdsOf_raise {c : Cause} (hm : c ≠ .mode) (hr : c ≠ .ring) : holdsOf (raise x c s) = holdsOf s :=
  holdsOf_onMgd s x (fun _ => hasCause_addCause_ne hm.symm) (fun _ => hasCause_addCause_ne hr.symm)

@[simp] theorem holdsOf_raiseMasked (m : MaskBit) {c : Cause} (hm : c ≠ .mode) (hr : c ≠ .ring) :
    holdsOf (raiseMasked x m c s) = holdsOf s := by
  unfold raiseMasked
  split
  · exact holdsOf_raise s x hm hr
  · rfl

@[simp] theorem holdsOf_whenDo {f : State → State} (h : ∀ u, holdsOf (f u) = holdsOf u) (c : Bool) :
    holdsOf (whenDo c f s) = holdsOf s := by
  unfold whenDo
  split
  · exact h s
  · rfl

@[simp] theorem holdsOf_setZone (z : Nat) (v : Zone) : holdsOf (setZone z v s) = holdsOf s := rfl

@[simp] theorem holdsOf_onTrigger (f : Trigger → Trigger) : holdsOf (onTrigger x f s) = holdsOf s := holdsOf_onTcu s x _

@[simp] theorem holdsOf_emptyHistory : holdsOf (emptyHistory x s) = holdsOf s := holdsOf_of_touches s (by simp)

@[simp] theorem holdsOf_setPort (p : Nat) (v : PortState) : holdsOf (setPort p v s) = holdsOf s :=
  holdsOf_of_touches s (by simp)

@[simp] theorem holdsOf_moveTip (t : Nat) (l : TipLocation) : holdsOf (moveTip t l s) = holdsOf s :=
  holdsOf_of_touches s (by simp)

/-! ### Zones and sessions -/

@[simp] theorem holdsOf_applyClaim (z : Nat) : holdsOf (applyClaim x z s) = holdsOf s := by
  unfold applyClaim
  split <;> rfl

@[simp] theorem holdsOf_enterStep : holdsOf (enterStep x s) = holdsOf s := holdsOf_onPcc s x _

@[simp] theorem holdsOf_grantZone (z : Nat) : holdsOf (grantZone x z s) = holdsOf s := by
  unfold grantZone
  dsimp only
  split <;> simp

@[simp] theorem holdsOf_releaseZone (announce : Bool) (z : Nat) : holdsOf (releaseZone announce z s) = holdsOf s := by
  unfold releaseZone
  dsimp only
  split
  · rfl
  · split_ifs <;> simp

@[simp] theorem holdsOf_askRelease (z : Nat) : holdsOf (askRelease x z s) = holdsOf s := by
  unfold askRelease
  split
  · split_ifs <;> simp
  · rfl

@[simp] theorem holdsOf_withdrawWait (z : Nat) : holdsOf (withdrawWait x z s) = holdsOf s := by
  unfold withdrawWait
  split
  · split_ifs <;> simp
  · rfl

@[simp] theorem holdsOf_clearSession : holdsOf (clearSession x s) = holdsOf s := holdsOf_onPcc s x _

@[simp] theorem holdsOf_completeSession : holdsOf (completeSession x s) = holdsOf s := by simp [completeSession]

@[simp] theorem holdsOf_cancelWaiting : holdsOf (cancelWaiting x s) = holdsOf s := by simp [cancelWaiting]

@[simp] theorem holdsOf_enterFault (c : FaultCause) (d : Detail) : holdsOf (enterFault x c d s) = holdsOf s := by
  unfold enterFault
  dsimp only
  split <;> simp

theorem holdsOf_dropComplete : holdsOf (dropComplete x s) = holdsOf s := by
  unfold dropComplete dropDone
  dsimp only
  split
  · split
    · split <;> simp [onSession]
    · rfl
  · rfl

theorem holdsOf_disturb (m : Nat) (lost headLast : Bool) : holdsOf (disturb x m lost headLast s) = holdsOf s := by
  have hmark (u : State) : holdsOf (markHead x u) = holdsOf u := by
    unfold markHead
    split <;> simp
  unfold disturb
  cases headLast <;> simp [hmark, postHead, cancelByMismatch, losesTip]

theorem holdsOf_pickComplete (headLast : Bool) : holdsOf (pickComplete x headLast s) = holdsOf s := by
  have hformer (l : TipLocation) (p : Nat) (u : State) : holdsOf (unverifyFormer l p u) = holdsOf u :=
    holdsOf_of_touches u (by simp)
  unfold pickComplete pickDone
  dsimp only
  split
  · split
    · split <;> simp [holdsOf_disturb, hformer]
    · rfl
  · rfl

theorem holdsOf_readStatus (input : Memory 8) : holdsOf (readStatus x input s) = holdsOf s := by
  unfold readStatus
  split
  · rfl
  · dsimp only
    split <;> simp [supervise]

theorem holdsOf_abortStep : holdsOf (abortStep x s) = holdsOf s := by simp [abortStep]

/-! ### Touches and the return pass -/

@[simp] theorem holdsOf_numericOnset (sat beyond : BitVec 3) : holdsOf (numericOnset x sat beyond s) = holdsOf s := by
  simp [numericOnset]

theorem holdsOf_passLimits (r : Chain) : holdsOf (passLimits x r s) = holdsOf s := by
  unfold passLimits
  split
  · exact (holdsOf_whenDo _ (fun u => by simp) _).trans (holdsOf_onCen s x _)
  · rfl

@[simp] theorem holdsOf_losePoint (seq : BitVec 16) (why : LostReason) : holdsOf (losePoint x seq why s) = holdsOf s := by
  simp [losePoint]

@[simp] theorem holdsOf_joinQueue (p : Point) : holdsOf (joinQueue p s) = holdsOf s := by
  unfold joinQueue
  split
  · rfl
  · simp

@[simp] theorem holdsOf_finishTouch (t : Touch) : holdsOf (finishTouch x t s) = holdsOf s := by
  simp [finishTouch, endTouch]

theorem holdsOf_resolveTouch : holdsOf (resolveTouch x s) = holdsOf s := by
  unfold resolveTouch
  split <;> simp

theorem holdsOf_lateTouch : holdsOf (lateTouch x s) = holdsOf s := by
  unfold lateTouch
  split
  · split <;> simp [endTouch]
  · rfl

theorem holdsOf_correctArm (input : Memory 8) : holdsOf (correctArm x input s).state = holdsOf s := by
  have hstep (c : Option (BitVec 64)) (u : State) : holdsOf (resolutionStep x c u) = holdsOf u :=
    holdsOf_of_touches u (by simp)
  unfold correctArm
  split
  · split
    · simp [hstep]
    · split <;> simp [correctInvalid, correctValid, hstep]
  · rfl

theorem holdsOf_takeThermal (sync : BitVec 64) (input : Memory 8) (t : ThermalStep) :
    holdsOf (takeThermal sync input t s) = holdsOf s := by
  unfold takeThermal
  split
  · rfl
  · cases t with
    | restart | channel => exact holdsOf_of_touches s (by simp)
    | aggregate a => exact (holdsOf_whenDo _ (fun u => by simp [staleOnset]) _).trans rfl

theorem holdsOf_latches (v : BitVec 8) : holdsOf (s.onMgd x (fun g => { g with latches := v })) = holdsOf s :=
  holdsOf_onMgd s x (fun _ => rfl) (fun _ => rfl)

theorem holdsOf_inside (v : List Inside) : holdsOf (s.onMgd x (fun g => { g with inside := v })) = holdsOf s :=
  holdsOf_onMgd s x (fun _ => rfl) (fun _ => rfl)

theorem holdsOf_monitorArm (t : Vec3) : holdsOf (monitorArm x t s) = holdsOf s := by
  have hcreep (u : State) : holdsOf (removeCreep x u) = holdsOf u := holdsOf_onMgd u x (fun _ => rfl) (fun _ => rfl)
  have honset (o : BitVec 8) (u : State) : holdsOf (intrusionOnset x o u) = holdsOf u := by
    unfold intrusionOnset
    dsimp only
    split_ifs <;> simp
  unfold monitorArm
  split
  · rfl
  · dsimp only
    rw [hcreep, honset]
    rw [holdsOf_latches, holdsOf_inside]

theorem holdsOf_drainPoints : holdsOf (drainPoints s) = holdsOf s := by
  have hwrite (w i : Nat) (ps : List Point) (u : State) : holdsOf (writePoints w i ps u) = holdsOf u := by
    induction ps generalizing i u with
    | nil => rfl
    | cons p ps ih => exact (ih _ _).trans rfl
  unfold drainPoints
  split
  · rfl
  · exact hwrite _ _ _ _

theorem holdsOf_activate (k : TableKind) : holdsOf (activate k s) = holdsOf s := by
  unfold activate activationEffect
  rw [holdsOf_post]
  cases k with
  | armMap x => simp
  | stationRecord => dsimp only; split <;> rfl
  | zoneTable =>
    simp only [holdsOf, Holds.mk.injEq]
    exact ⟨rfl, rfl, rfl, funext fun y => by cases y <;> rfl, funext fun y => by cases y <;> rfl⟩
  | slotMap | channelTable => rfl

theorem holdsOf_leaveRun : holdsOf (leaveRun x s) = holdsOf s := by
  unfold leaveRun
  dsimp only
  split <;> simp

theorem holdsOf_enterRun : holdsOf (enterRun s) = { holdsOf s with station := .run } := by
  have hstart (y : Arm) (u : State) : holdsOf (startCountdown y u) = holdsOf u := holdsOf_of_touches u (by simp)
  rw [enterRun, hstart, hstart]
  rfl

/-! ### Functions that change the holds -/

theorem holdsOf_raise_mode :
    holdsOf (raise x .mode s) = { holdsOf s with mode := Function.update (holdsOf s).mode x true } := by
  have hring : (fun y => hasCause ((raise x .mode s).mgdOf y).causes .ring) = fun y => hasCause (s.mgdOf y).causes .ring :=
    funext fun y => modify_part (g := fun g : MgdArm => hasCause g.causes .ring)
      (fun _ => hasCause_addCause_ne (by decide)) s.mgd.arm x y
  have hmode : (fun y => hasCause ((raise x .mode s).mgdOf y).causes .mode) = _ :=
    funext_modify x s.mgd.arm _ (fun g => hasCause g.causes .mode)
  simp only [holdsOf, hring, hmode, hasCause_addCause_self]
  rfl

theorem holdsOf_raise_ring :
    holdsOf (raise x .ring s) = { holdsOf s with ring := Function.update (holdsOf s).ring x true } := by
  have hmode : (fun y => hasCause ((raise x .ring s).mgdOf y).causes .mode) = fun y => hasCause (s.mgdOf y).causes .mode :=
    funext fun y => modify_part (g := fun g : MgdArm => hasCause g.causes .mode)
      (fun _ => hasCause_addCause_ne (by decide)) s.mgd.arm x y
  have hring : (fun y => hasCause ((raise x .ring s).mgdOf y).causes .ring) = _ :=
    funext_modify x s.mgd.arm _ (fun g => hasCause g.causes .ring)
  simp only [holdsOf, hring, hmode, hasCause_addCause_self]
  rfl

theorem update_both {α : Type} (f : Arm → α) (v : α) :
    Function.update (Function.update f .a v) .b v = fun _ => v := by
  funext y
  cases y <;> rfl

theorem holdsOf_addMode : holdsOf (addMode s) = { holdsOf s with mode := fun _ => true } := by
  rw [addMode, holdsOf_raise_mode, holdsOf_raise_mode, update_both]

theorem holdsOf_ringBegin :
    holdsOf (raise .b .ring (raise .a .ring { s with riu := { s.riu with ringLoss := true } }))
      = { holdsOf s with ringLoss := true, ring := fun _ => true } := by
  rw [holdsOf_raise_ring, holdsOf_raise_ring, update_both]
  rfl

theorem holdsOf_takeAddress (a : Byte) :
    holdsOf (takeAddress a s) = { holdsOf s with address := some a, station := .config, mode := fun _ => true } := by
  rw [takeAddress, holdsOf_addMode]
  rfl

theorem holdsOf_enterConfig :
    holdsOf (enterConfig s) = { holdsOf s with station := .config, mode := fun _ => true } := by
  rw [enterConfig, holdsOf_addMode, holdsOf_leaveRun, holdsOf_leaveRun]
  rfl

theorem holdsOf_warmReset :
    holdsOf (warmReset s) = ⟨.config, false, s.riu.address, fun _ => true, fun _ => false⟩ := by
  have hriu : (interruptSession .b (interruptSession .a s)).riu = s.riu :=
    (show Touches [.pcc] s (interruptSession .b (interruptSession .a s)) by simp).riu (by decide)
  rw [warmReset, holdsOf_addMode]
  have hempty : hasCause (0 : BitVec 12) .ring = false := by decide
  simp only [holdsOf, Holds.mk.injEq, hriu, true_and]
  exact funext fun y => by cases y <;> exact hempty

end

/-! ### The invariant -/

/-- MODE stands in CONFIG, RING during ring loss, and an address exactly outside UNADDRESSED. -/
structure Standing (h : Holds) : Prop where
  mode    : h.station = .config → ∀ x, h.mode x = true
  ring    : h.ringLoss = true → ∀ x, h.ring x = true
  address : h.station = .unaddressed ↔ h.address = none

theorem holdsStand_iff {s : State} : HoldsStand s ↔ Standing (holdsOf s) :=
  ⟨fun ⟨hm, hr, ha⟩ => ⟨hm, hr, ha⟩, fun ⟨hm, hr, ha⟩ => ⟨hm, hr, ha⟩⟩

theorem hasCause_causesOf {cs : List Cause} {c : Cause} : hasCause (causesOf cs) c = true ↔ c ∈ cs := by
  induction cs with
  | nil => simp [causesOf, hasCause]
  | cons d cs ih =>
    rw [causesOf, hasCause_addCause, ih, List.mem_cons, or_comm]

theorem mem_allCauses (c : Cause) : c ∈ allCauses := by cases c <;> decide

/-- R115, R116: a cause other than INTRUSION and LIMIT stays exactly when its condition does not allow its removal. -/
theorem hasCause_remainingCauses {s : State} {x : Arm} {recover : Bool} {c : Cause} (hi : c ≠ .intrusion) (hl : c ≠ .limit) :
    hasCause (remainingCauses s x recover) c = true ↔ hasCause (s.mgdOf x).causes c = true ∧ removable s x c = false := by
  simp [remainingCauses, hasCause_causesOf, mem_allCauses, hi, hl]

theorem releaseHold_standing {s : State} {x : Arm} {recover : Bool} (h : Standing (holdsOf s)) :
    Standing (holdsOf (releaseHold x recover s)) := by
  have hcauses (y : Arm) : ((releaseHold x recover s).mgdOf y).causes
      = if y = x then remainingCauses s x recover else (s.mgdOf y).causes := by
    by_cases hy : y = x
    · subst hy; simp [releaseHold, State.mgdOf, State.onMgd]
    · simp [releaseHold, State.mgdOf, State.onMgd, hy, get_modify_other _ _ hy]
  refine ⟨fun hc y => ?_, fun hr y => ?_, h.address⟩
  · have hmode := h.mode hc y
    have hstay : removable s y .mode = false := by
      have hstation : s.riu.station = .config := hc
      simp [removable, hstation]
    simp only [holdsOf, hcauses] at hmode ⊢
    split
    · next hy =>
      subst hy
      exact (hasCause_remainingCauses (by decide) (by decide)).2 ⟨hmode, hstay⟩
    · exact hmode
  · have hring := h.ring hr y
    have hstay : removable s y .ring = false := by
      have hloss : s.riu.ringLoss = true := hr
      simp [removable, hloss]
    simp only [holdsOf, hcauses] at hring ⊢
    split
    · next hy =>
      subst hy
      exact (hasCause_remainingCauses (by decide) (by decide)).2 ⟨hring, hstay⟩
    · exact hring

theorem Owner.standing {c : RequestCode} {own : State → Served} (ho : Owner c own) {s : State} (hs : InService s)
    (h : Standing (holdsOf s)) : Standing (holdsOf (own s).state) := by
  have hsame {t : State} (heq : holdsOf t = holdsOf s) : Standing (holdsOf t) := heq.symm ▸ h
  obtain ⟨-, haddressed⟩ := hs
  have hnone : s.riu.address ≠ none := fun hn => haddressed (h.address.2 hn)
  have harm {v : Byte} {f : Arm → State → Served} (hf : ∀ x, Standing (holdsOf (f x s).state)) :
      Standing (holdsOf (withArm v f s).state) := withArm_keeps (Q := fun u => Standing (holdsOf u)) h hf
  have hkind {v : Byte} {f : TableKind → State → Served} (hf : ∀ k, Standing (holdsOf (f k s).state)) :
      Standing (holdsOf (withKind v f s).state) := withKind_keeps (Q := fun u => Standing (holdsOf u)) h hf
  have hchecks {checks : List (Bool × Result)} {f : State → Served} (hf : Standing (holdsOf (f s).state)) :
      Standing (holdsOf (afterChecks checks f s).state) :=
    afterChecks_keeps (Q := fun u => Standing (holdsOf u)) h (fun _ => hf)
  cases ho with
  | stationMode w =>
    unfold ownStationMode
    split_ifs
    · exact h
    · exact h
    · refine (holdsOf_enterRun s).symm ▸ ⟨nofun, h.ring, ⟨nofun, fun hn => absurd hn hnone⟩⟩
    · exact h
    · exact h
    · exact (holdsOf_enterConfig s).symm ▸ ⟨fun _ _ => rfl, h.ring, ⟨nofun, fun hn => absurd hn hnone⟩⟩
    · exact h
  | stationReset =>
    exact (holdsOf_warmReset s).symm ▸ ⟨fun _ _ => rfl, nofun, ⟨nofun, fun hn => absurd hn hnone⟩⟩
  | statusRead a b c => unfold ownStatusRead; split <;> exact h
  | tableWrite | tableClear | tableCheck => exact hkind (fun k => hchecks (hsame (holdsOf_onTbs s k _)))
  | tableActivate k =>
    refine hkind (fun k => hchecks ?_)
    dsimp only
    split
    · exact hsame (by simp [failCross])
    · exact hsame (holdsOf_activate s k)
  | tableRead k b o =>
    refine hkind (fun k => ?_)
    dsimp only
    split_ifs <;> try exact h
    split <;> exact h
  | tipSet | tipRemove | eventPriority | reportLevel | workpieceSet | workpieceClear => exact hchecks h
  | portSet p v t =>
    refine hchecks ?_
    split
    · exact hsame (holdsOf_of_touches s (by simp [served]))
    · exact h
  | armTipSet a t => exact harm (fun x => hchecks (hsame (holdsOf_of_touches s (by simp [served]))))
  | triggerArm a => exact harm (fun x => hchecks (hsame (holdsOf_onTrigger s x _)))
  | triggerDisarm a =>
    refine harm (fun x => ?_)
    split
    · exact h
    · exact hsame (holdsOf_onTcu s x _)
    · exact hsame (holdsOf_onTcu s x _)
    · exact hsame (holdsOf_onTrigger s x _)
    · exact h
  | featureOpen a => exact harm (fun x => hchecks (hsame (holdsOf_onTcu s x _)))
  | featureClose a =>
    refine harm (fun x => ?_)
    split_ifs
    · exact h
    · exact hsame (holdsOf_of_touches s (by simp [served]))
    · exact h
  | thermalAdvance a => exact harm (fun x => hchecks (hsame (holdsOf_of_touches s (by simp))))
  | zoneClaim a z => exact harm (fun x => hchecks (hsame (holdsOf_applyClaim s x _)))
  | zoneRelease a z =>
    refine harm (fun x => hchecks ?_)
    unfold releaseBy
    split_ifs
    · exact hsame (holdsOf_askRelease s x _)
    · exact hsame (holdsOf_withdrawWait s x _)
    · exact h
  | holdRelease a r => exact harm (fun x => hchecks (releaseHold_standing h))
  | changeBegin a d p =>
    refine harm (fun x => hchecks (hsame ?_))
    simp only [served, beginSession]
    split_ifs <;> simp
  | changeAbort a =>
    refine harm (fun x => ?_)
    split
    · exact h
    · exact hsame (by simp [served])
    · exact hsame (holdsOf_abortStep s x)

theorem Move.standing {s t : State} (hm : Move s t) (h : Standing (holdsOf s)) : Standing (holdsOf t) := by
  have hsame {t : State} (heq : holdsOf t = holdsOf s) : Standing (holdsOf t) := heq.symm ▸ h
  cases hm with
  | line v hv => exact hsame (holdsOf_riu s hv.station hv.ringLoss hv.address)
  | ringBegin => exact (holdsOf_ringBegin s).symm ▸ ⟨h.mode, fun _ _ => rfl, h.address⟩
  | ringEnd => exact ⟨h.mode, nofun, h.address⟩
  | drain => exact hsame (holdsOf_drainPoints s)
  | resolve x => exact hsame (holdsOf_resolveTouch s x)
  | late x => exact hsame (holdsOf_lateTouch s x)
  | drop x => exact hsame (holdsOf_dropComplete s x)
  | pick x l => exact hsame (holdsOf_pickComplete s x l)
  | release z =>
    unfold deferredRelease
    split
    · exact hsame (holdsOf_releaseZone s true z)
    · exact h
  | fault x c d => exact hsame (holdsOf_enterFault s x c d)
  | thermal => exact hsame (holdsOf_takeThermal s _ _ _)
  | correct x input => exact hsame (holdsOf_correctArm s x input)
  | numeric x a b => exact hsame (holdsOf_numericOnset s x a b)
  | limits x r => exact hsame (holdsOf_passLimits s x r)
  | monitor x v => exact hsame (holdsOf_monitorArm s x v)
  | status x input => exact hsame (holdsOf_readStatus s x input)
  | address a =>
    exact (holdsOf_takeAddress s a).symm ▸ ⟨fun _ _ => rfl, h.ring, ⟨nofun, nofun⟩⟩
  | powerOn a b => exact ⟨nofun, nofun, ⟨fun _ => rfl, fun _ => rfl⟩⟩
  | serve ho hs => exact ho.standing hs h
  | missed | turned | record => exact h
  | _ => exact hsame (holdsOf_of_touches s (by simp))

/-- Settles O8: every move keeps it. -/
theorem stepKeepsHolds : Obligations.StepKeepsHolds := by
  unfold Obligations.StepKeepsHolds
  intro s t hs h
  exact holdsStand_iff.2 (step_keeps (P := fun u => Standing (holdsOf u)) (fun _ _ => id)
    (fun hm hu => hm.standing hu) (holdsStand_iff.1 hs) h)

end Sys2Proof.Proofs
end

section
/-! The places of the block: the tips, the ports, the zones and the session records; and the functions that leave them as
they are. -/
namespace Sys2Proof.Proofs

open Sys2Proof.Machine Sys2Proof.Laws

/-- The tips, the ports, the zones, and each arm's session record. -/
structure Places where
  tips    : List Tip
  ports   : List PortState
  zones   : List Zone
  session : Arm → Session

/-- The places of a state. -/
def placesOf (s : State) : Places := ⟨s.pcc.tips, s.pcc.ports, s.mgd.zones, fun x => untimed (sessionOf s x)⟩

section
variable (s : State) (x : Arm)

theorem placesOf_of_touches {t : State} (h : Touches [.riu, .rqu, .tbs, .cen, .thu, .tcu, .evu] s t) :
    placesOf t = placesOf s := by
  simp only [placesOf, sessionOf, State.pccOf, h.pcc (by decide), h.mgd (by decide)]

@[simp] theorem placesOf_riu (v : Riu) : placesOf { s with riu := v } = placesOf s := placesOf_of_touches s (by simp)

@[simp] theorem placesOf_onCen (f : CenArm → CenArm) : placesOf (s.onCen x f) = placesOf s :=
  placesOf_of_touches s (by simp)

@[simp] theorem placesOf_onThu (f : ThuArm → ThuArm) : placesOf (s.onThu x f) = placesOf s :=
  placesOf_of_touches s (by simp)

@[simp] theorem placesOf_onTcu (f : TcuArm → TcuArm) : placesOf (s.onTcu x f) = placesOf s :=
  placesOf_of_touches s (by simp)

@[simp] theorem placesOf_onTbs (k : TableKind) (f : TableState → TableState) : placesOf (s.onTbs k f) = placesOf s :=
  placesOf_of_touches s (by simp)

@[simp] theorem placesOf_post (src : EventSource) (d : Detail) : placesOf (post src d s) = placesOf s :=
  placesOf_of_touches s (by simp)

@[simp] theorem placesOf_onTrigger (f : Trigger → Trigger) : placesOf (onTrigger x f s) = placesOf s :=
  placesOf_of_touches s (by simp)

@[simp] theorem placesOf_setTrigger (t : Trigger) : placesOf (setTrigger x t s) = placesOf s :=
  placesOf_of_touches s (by simp)

@[simp] theorem placesOf_emptyHistory : placesOf (emptyHistory x s) = placesOf s := placesOf_of_touches s (by simp)

@[simp] theorem placesOf_resolutionStep (c : Option (BitVec 64)) : placesOf (resolutionStep x c s) = placesOf s :=
  placesOf_of_touches s (by simp)

@[simp] theorem placesOf_clearRack (p : Nat) : placesOf (clearRack p s) = placesOf s := placesOf_of_touches s (by simp)

theorem onMgd_zones {f : MgdArm → MgdArm} : (s.onMgd x f).mgd.zones = s.mgd.zones := rfl

@[simp] theorem placesOf_onMgd (f : MgdArm → MgdArm) : placesOf (s.onMgd x f) = placesOf s := by
  simp only [placesOf, onMgd_zones]
  rfl

@[simp] theorem placesOf_raise (c : Cause) : placesOf (raise x c s) = placesOf s := placesOf_onMgd s x _

@[simp] theorem placesOf_raiseMasked (m : MaskBit) (c : Cause) : placesOf (raiseMasked x m c s) = placesOf s := by
  unfold raiseMasked
  split <;> simp

@[simp] theorem placesOf_whenDo {f : State → State} (h : ∀ u, placesOf (f u) = placesOf u) (c : Bool) :
    placesOf (whenDo c f s) = placesOf s := by
  unfold whenDo
  split
  · exact h s
  · rfl

/-! ### The Correction Engine, the Thermal Unit, the touches -/

@[simp] theorem placesOf_numericOnset (sat beyond : BitVec 3) : placesOf (numericOnset x sat beyond s) = placesOf s := by
  simp [numericOnset]

@[simp] theorem placesOf_passLimits (r : Chain) : placesOf (passLimits x r s) = placesOf s := by
  unfold passLimits
  split
  · exact (placesOf_whenDo _ (fun u => by simp) _).trans (placesOf_onCen s x _)
  · rfl

@[simp] theorem placesOf_losePoint (seq : BitVec 16) (why : LostReason) : placesOf (losePoint x seq why s) = placesOf s := by
  simp [losePoint]

@[simp] theorem placesOf_joinQueue (p : Point) : placesOf (joinQueue p s) = placesOf s := by
  unfold joinQueue
  split
  · exact placesOf_of_touches s (by simp)
  · simp

@[simp] theorem placesOf_finishTouch (t : Touch) : placesOf (finishTouch x t s) = placesOf s := by
  simp [finishTouch, endTouch]

@[simp] theorem placesOf_resolveTouch : placesOf (resolveTouch x s) = placesOf s := by
  unfold resolveTouch
  split <;> simp

@[simp] theorem placesOf_lateTouch : placesOf (lateTouch x s) = placesOf s := by
  unfold lateTouch
  split
  · split <;> simp [endTouch]
  · rfl

@[simp] theorem placesOf_correctArm (input : Memory 8) : placesOf (correctArm x input s).state = placesOf s := by
  unfold correctArm
  split
  · split
    · simp
    · split <;> simp [correctInvalid, correctValid]
  · rfl

@[simp] theorem placesOf_takeThermal (sync : BitVec 64) (input : Memory 8) (t : ThermalStep) :
    placesOf (takeThermal sync input t s) = placesOf s := by
  unfold takeThermal
  split
  · rfl
  · cases t with
    | restart | channel => exact placesOf_of_touches s (by simp)
    | aggregate a => exact (placesOf_whenDo _ (fun u => by simp [staleOnset]) _).trans (placesOf_of_touches s (by simp))

@[simp] theorem placesOf_monitorArm (t : Vec3) : placesOf (monitorArm x t s) = placesOf s := by
  have honset (o : BitVec 8) (u : State) : placesOf (intrusionOnset x o u) = placesOf u := by
    unfold intrusionOnset
    dsimp only
    split_ifs <;> simp
  unfold monitorArm
  split
  · rfl
  · simp [removeCreep, honset]

@[simp] theorem placesOf_activate (k : TableKind) : placesOf (activate k s) = placesOf s := by
  unfold activate activationEffect
  rw [placesOf_post]
  cases k with
  | armMap x => simp
  | stationRecord => dsimp only; split <;> rfl
  | zoneTable | slotMap | channelTable => rfl

@[simp] theorem placesOf_addMode : placesOf (addMode s) = placesOf s := by simp [addMode]

/-! ### The Probe Change Controller -/

theorem placesOf_onPcc (f : PccArm → PccArm) :
    placesOf (s.onPcc x f)
      = { placesOf s with session := Function.update (placesOf s).session x (untimed (f (s.pccOf x)).session) } := by
  unfold State.onPcc
  simp only [placesOf, sessionOf, State.pccOf]
  rw [funext_modify x s.pcc.arm _ (fun p => untimed p.session)]

theorem placesOf_onPcc_same {f : PccArm → PccArm} (h : untimed (f (s.pccOf x)).session = untimed (s.pccOf x).session) :
    placesOf (s.onPcc x f) = placesOf s := by
  rw [placesOf_onPcc, h]
  exact congrArg (fun t => { placesOf s with session := t }) (Function.update_eq_self x _)

/-- A change of a session record that the untimed record follows. -/
theorem placesOf_onSession {f g : Session → Session} (h : ∀ c, untimed (f c) = g (untimed c)) :
    placesOf (onSession x f s)
      = { placesOf s with session := Function.update (placesOf s).session x (g ((placesOf s).session x)) } := by
  rw [onSession, placesOf_onPcc, h]
  rfl

theorem placesOf_clearSession :
    placesOf (clearSession x s) = { placesOf s with session := Function.update (placesOf s).session x Session.idle } :=
  placesOf_onPcc s x _

/-- R83: a session that is granted zone 0. -/
def entered (c : Session) : Session :=
  { c with state := if c.dropTip.isSome then .drop else .pick, timer := some 0 }

theorem placesOf_enterStep :
    placesOf (enterStep x s)
      = { placesOf s with session := Function.update (placesOf s).session x (entered ((placesOf s).session x)) } :=
  placesOf_onSession s x (g := entered) (fun _ => rfl)

/-- R89: a session in FAULT. -/
def faulted (cause : FaultCause) (c : Session) : Session := { c with state := .fault, timer := none, fault := some cause }

theorem placesOf_enterFault (c : FaultCause) (d : Detail) :
    placesOf (enterFault x c d s) = placesOf s ∧ (sessionOf s x).state = .fault
      ∨ placesOf (enterFault x c d s)
        = { placesOf s with session := Function.update (placesOf s).session x (faulted c ((placesOf s).session x)) } := by
  unfold enterFault
  dsimp only
  split
  · exact .inl ⟨placesOf_post _ _ _, ‹_›⟩
  · rw [placesOf_post, placesOf_raise, placesOf_onPcc]
    exact .inr rfl

@[simp] theorem placesOf_readStatus (input : Memory 8) : placesOf (readStatus x input s) = placesOf s := by
  unfold readStatus
  split
  · rfl
  · dsimp only
    split
    · simp [supervise, placesOf_onPcc_same]
    · exact (placesOf_onPcc_same _ x rfl).trans (placesOf_onPcc_same s x rfl)

@[simp] theorem placesOf_tickStep : placesOf (tickStep x s) = placesOf s := by
  unfold tickStep
  split
  · exact placesOf_onPcc_same s x (by cases h : (s.pccOf x).session.timer <;> simp [untimed, h])
  · rfl

theorem placesOf_setZone (z : Nat) (v : Zone) :
    placesOf (setZone z v s) = { placesOf s with zones := (placesOf s).zones.set z v } := rfl

theorem placesOf_setPort (p : Nat) (v : PortState) :
    placesOf (setPort p v s) = { placesOf s with ports := (placesOf s).ports.set p v } := rfl

theorem placesOf_onTip (t : Nat) (f : Tip → Tip) :
    placesOf (onTip t f s) = { placesOf s with tips := (placesOf s).tips.modify (t - 1) f } := rfl

end

end Sys2Proof.Proofs
end

section
/-! What a move can do to the places of the block, said once: most moves leave them as they are, and each of the others is one
of the few changes listed here, taken under the condition that its move meets. -/
namespace Sys2Proof.Proofs

open Sys2Proof.Machine Sys2Proof.Laws

/-- A move that changes the places. -/
inductive PlaceMove (s : State) : State → Prop
  | drop (x : Arm) (h : (sessionOf s x).state = .drop) : PlaceMove s (dropDone x s)
  | pick (x : Arm) (headLast : Bool) (h : (sessionOf s x).state = .pick) : PlaceMove s (pickDone x headLast s)
  | release (z : Nat) (h : releaseDue s z = true) : PlaceMove s (releaseZone true z s)
  | fault (x : Arm) (c : FaultCause) (d : Detail)
      (h : inStep (sessionOf s x) = true ∨ (sessionOf s x).state = .fault) : PlaceMove s (enterFault x c d s)
  | monitor (r : BitVec 12) (p : Nat) (h : exempt s p = false) : PlaceMove s (monitorPort r p s)
  | powerOn (cut1 cut2 : Bool) : PlaceMove s (powerOn cut1 cut2 s)
  | enterConfig (h : ∀ x, inStep (sessionOf s x) = false) : PlaceMove s (enterConfig s)
  | warmReset : PlaceMove s (warmReset s)
  | tipWritten (t : Nat) (f : ParamWords) (ht : tipIdOk t = true)
      (hcode : codeTaken s t (BitVec.ofNat 16 (bitField f.w5.toNat 0 16)) = false) : PlaceMove s (onTip t (tipWritten f) s)
  | tipRemoved (t : Nat) (ht : tipIdOk t = true) (h : tipPlaced (tipOf s t).location = false) :
    PlaceMove s (onTip t (fun r => { r with present := false, location := .absent }) s)
  | portSet (p : Nat) (v : PortState) (hp : p < 12) (ht : portTipOk s (some v) = true) (hidle : ∀ x, sessionIdle s x = true)
      (hfree : portTipFree s p (some v) = true) : PlaceMove s (setPort p v (placeTip p v (evictTip p v s)))
  | armTip (x : Arm) (t : Nat) (ht : t ≠ 0 → tipIdOk t = true ∧ (tipOf s t).present = true) (hidle : sessionIdle s x = true)
      (hfree : t ≠ 0 → tipPlaced (tipOf s t).location = false) : PlaceMove s (mount x t (dismount x s))
  | claim (x : Arm) (z : Nat) (hz : z < 8) : PlaceMove s (applyClaim x z s)
  | ask (x : Arm) (z : Nat) (hidle : z = 0 → sessionIdle s x = true) : PlaceMove s (askRelease x z s)
  | withdraw (x : Arm) (z : Nat) (hidle : z = 0 → sessionIdle s x = true) : PlaceMove s (withdrawWait x z s)
  | begin (x : Arm) (drop pick : Option Nat) (h : firstRefusal (changeChecks s x drop pick) = none) :
    PlaceMove s (beginSession x drop pick s)
  | cancel (x : Arm) (h : (sessionOf s x).state = .waitZone) : PlaceMove s (cancelWaiting x s)
  | abort (x : Arm) : PlaceMove s (abortStep x s)

/-- The places are as before, or as one of the listed changes leaves them. -/
def Displaces (s t : State) : Prop := placesOf t = placesOf s ∨ ∃ u, PlaceMove s u ∧ placesOf t = placesOf u

section
variable {s t : State} {x : Arm}

theorem PlaceMove.displaces (h : PlaceMove s t) : Displaces s t := .inr ⟨t, h, rfl⟩

theorem Displaces.same (h : placesOf t = placesOf s) : Displaces s t := .inl h

theorem Displaces.stay : Displaces s s := .inl rfl

theorem Displaces.withArm {v : Byte} {f : Arm → State → Served} (h : ∀ x, Displaces s (f x s).state) :
    Displaces s (withArm v f s).state := withArm_keeps (Q := Displaces s) .stay h

theorem Displaces.withKind {v : Byte} {f : TableKind → State → Served} (h : ∀ k, Displaces s (f k s).state) :
    Displaces s (withKind v f s).state := withKind_keeps (Q := Displaces s) .stay h

/-- What the checks let through, taken with every check passed. -/
theorem Displaces.afterChecks {checks : List (Bool × Result)} {f : State → Served}
    (h : (∀ c ∈ checks, c.1 = false) → Displaces s (f s).state) : Displaces s (afterChecks checks f s).state :=
  afterChecks_keeps (Q := Displaces s) .stay (fun hnone => h (firstRefusal_eq_none.1 hnone))

theorem Displaces.stationMode (w : Word) : Displaces s (ownStationMode w s).state := by
  unfold ownStationMode
  split_ifs with _ _ _ _ _ hbusy
  · exact .stay
  · exact .stay
  · have hstart (x : Arm) (u : State) : placesOf (startCountdown x u) = placesOf u := by
      unfold startCountdown
      split
      · rfl
      · exact placesOf_onThu u x _
    exact .same ((hstart .b _).trans ((hstart .a _).trans (placesOf_riu s _)))
  · exact .stay
  · exact .stay
  · simp only [Bool.not_eq_true, Bool.or_eq_false_iff] at hbusy
    obtain ⟨⟨-, ha⟩, hb⟩ := hbusy
    exact (PlaceMove.enterConfig (forall_arm.2 ⟨ha, hb⟩)).displaces
  · exact .stay

theorem Displaces.portSet (p : Byte) (v w : Word) : Displaces s (ownPortSet p v w s).state := by
  refine .afterChecks (fun hchecks => ?_)
  split
  · next target htarget =>
    simp only [htarget, List.forall_mem_cons, Bool.not_eq_false', Bool.and_eq_true, decide_eq_true_eq] at hchecks
    obtain ⟨⟨hp, ht⟩, hidle, hfree, -⟩ := hchecks
    exact .inr ⟨_, .portSet p.toNat target hp ht (forall_arm.2 hidle) hfree, placesOf_clearRack _ _⟩
  · exact .stay

theorem Displaces.armTipSet (a : Byte) (w : Word) : Displaces s (ownArmTipSet a w s).state := by
  refine .withArm (fun x => .afterChecks (fun hchecks => ?_))
  simp only [List.forall_mem_cons, Bool.not_eq_false', Bool.and_eq_true, Bool.and_eq_false_iff, decide_eq_true_eq,
    decide_eq_false_iff_not] at hchecks
  obtain ⟨ht, ⟨hidle, -⟩, hfree, -⟩ := hchecks
  exact .inr ⟨_, .armTip x _ (fun hne => ht.resolve_left (not_not.2 hne)) hidle (fun hne => hfree.resolve_left (not_not.2 hne)),
    placesOf_emptyHistory _ x⟩

theorem Displaces.zoneRelease (a z : Byte) : Displaces s (ownZoneRelease a z s).state := by
  refine .withArm (fun x => .afterChecks (fun hchecks => ?_))
  simp only [List.forall_mem_cons, Bool.and_eq_false_iff, decide_eq_false_iff_not, Bool.not_eq_false'] at hchecks
  obtain ⟨-, hidle, -⟩ := hchecks
  have hidle : z.toNat = 0 → sessionIdle s x = true := fun hz => hidle.resolve_left (not_not.2 hz)
  unfold releaseBy
  split_ifs
  · exact (PlaceMove.ask x _ hidle).displaces
  · exact (PlaceMove.withdraw x _ hidle).displaces
  · exact .stay

theorem Displaces.changeAbort (a : Byte) : Displaces s (ownChangeAbort a s).state := by
  refine .withArm (fun x => ?_)
  split
  · exact .stay
  · exact .inr ⟨_, .cancel x ‹_›, placesOf_post _ _ _⟩
  · exact (PlaceMove.abort x).displaces

theorem Owner.displaces {c : RequestCode} {own : State → Served} (ho : Owner c own) : Displaces s (own s).state := by
  cases ho with
  | stationMode w => exact .stationMode w
  | stationReset => exact PlaceMove.warmReset.displaces
  | statusRead a b c => unfold ownStatusRead; split <;> exact .stay
  | tableWrite | tableClear | tableCheck => exact .withKind (fun k => .afterChecks (fun _ => .same (placesOf_onTbs s k _)))
  | tableActivate k =>
    refine .withKind (fun k => .afterChecks (fun _ => ?_))
    dsimp only
    split
    · exact .same ((placesOf_post _ _ _).trans (placesOf_onTbs s k _))
    · exact .same (placesOf_activate s k)
  | tableRead k b o =>
    refine .withKind (fun k => ?_)
    dsimp only
    split_ifs <;> try exact .stay
    split <;> exact .stay
  | tipSet t f =>
    refine .afterChecks (fun hchecks => ?_)
    simp only [List.forall_mem_cons, Bool.not_eq_false', Bool.and_eq_true] at hchecks
    obtain ⟨⟨ht, -⟩, hcode, -⟩ := hchecks
    exact (PlaceMove.tipWritten _ f ht hcode).displaces
  | tipRemove t =>
    refine .afterChecks (fun hchecks => ?_)
    simp only [List.forall_mem_cons, Bool.not_eq_false'] at hchecks
    obtain ⟨ht, hplaced, -⟩ := hchecks
    exact (PlaceMove.tipRemoved _ ht hplaced).displaces
  | portSet p v t => exact .portSet p v t
  | armTipSet a t => exact .armTipSet a t
  | triggerArm a => exact .withArm (fun x => .afterChecks (fun _ => .same (placesOf_onTrigger s x _)))
  | triggerDisarm a =>
    refine .withArm (fun x => ?_)
    split
    · exact .stay
    · exact .same (placesOf_setTrigger s x _)
    · exact .same (placesOf_setTrigger s x _)
    · exact .same (placesOf_onTrigger s x _)
    · exact .stay
  | featureOpen a => exact .withArm (fun x => .afterChecks (fun _ => .same (placesOf_onTcu s x _)))
  | featureClose a =>
    refine .withArm (fun x => ?_)
    split_ifs
    · exact .stay
    · exact .same (placesOf_of_touches s (by simp [served]))
    · exact .stay
  | workpieceSet | workpieceClear | eventPriority | reportLevel =>
    exact .afterChecks (fun _ => .same (placesOf_of_touches s (by simp [served])))
  | thermalAdvance a => exact .withArm (fun x => .afterChecks (fun _ => .same (placesOf_of_touches s (by simp))))
  | zoneClaim a z =>
    refine .withArm (fun x => .afterChecks (fun hchecks => ?_))
    simp only [List.forall_mem_cons, decide_eq_false_iff_not] at hchecks
    exact (PlaceMove.claim x _ (not_le.1 hchecks.1)).displaces
  | zoneRelease a z => exact .zoneRelease a z
  | holdRelease a r =>
    exact .withArm (fun x => .afterChecks (fun _ => .same ((placesOf_onCen _ x _).trans (placesOf_onMgd s x _))))
  | changeBegin a d p =>
    exact .withArm (fun x => .afterChecks (fun hchecks =>
      (PlaceMove.begin x _ _ (firstRefusal_eq_none.2 hchecks)).displaces))
  | changeAbort a => exact .changeAbort a

theorem Displaces.rack (input : Memory 8) (spared : List Nat) (t : RackStep) : Displaces s (takeRack input spared t s) := by
  unfold takeRack
  split
  · exact .stay
  · cases t with
    | reading => exact .same rfl
    | port p =>
      dsimp only
      split
      · exact .stay
      · by_cases h : exempt s p = true
        · exact .same (by simp [monitorPort, h])
        · exact (PlaceMove.monitor _ p (by simpa using h)).displaces

theorem Move.displaces (hm : Move s t) : Displaces s t := by
  cases hm with
  | drop x =>
    unfold dropComplete
    split
    · next h =>
      simp only [Bool.and_eq_true, decide_eq_true_eq] at h
      exact (PlaceMove.drop x h.2).displaces
    · exact .stay
  | pick x headLast =>
    unfold pickComplete
    split
    · next h =>
      simp only [Bool.and_eq_true, decide_eq_true_eq] at h
      exact (PlaceMove.pick x headLast h.2).displaces
    · exact .stay
  | release z =>
    unfold deferredRelease
    split
    · exact (PlaceMove.release z ‹_›).displaces
    · exact .stay
  | fault x c d h => exact (PlaceMove.fault x c d h).displaces
  | rack input spared t => exact .rack input spared t
  | powerOn a b => exact (PlaceMove.powerOn a b).displaces
  | serve ho => exact ho.displaces
  | changeMark x => exact .same (placesOf_onPcc_same s x rfl)
  | ringBegin => exact .same (by simp)
  | resolve x => exact .same (placesOf_resolveTouch s x)
  | late x => exact .same (placesOf_lateTouch s x)
  | tickStep x => exact .same (placesOf_tickStep s x)
  | thermal => exact .same (placesOf_takeThermal s _ _ _)
  | correct x input => exact .same (placesOf_correctArm s x input)
  | numeric x => exact .same (placesOf_numericOnset s x _ _)
  | limits x r => exact .same (placesOf_passLimits s x r)
  | monitor x t => exact .same (placesOf_monitorArm s x t)
  | status x input => exact .same (placesOf_readStatus s x input)
  | address a => exact .same ((placesOf_addMode _).trans (placesOf_riu s _))
  | _ => exact .same (placesOf_of_touches s (by simp))

end

end Sys2Proof.Proofs
end

section
/-! The zones (O9): at most one zone has a waiter, and each session has its place at zone 0. -/
namespace Sys2Proof.Proofs

open Sys2Proof.Machine Sys2Proof.Laws

/-! ### The operations on the zones -/

namespace Places

/-- A zone's reservation. -/
def zone (p : Places) (z : Nat) : Zone := p.zones.getD z .free

/-- The places with a zone's reservation set. -/
def withZone (p : Places) (z : Nat) (v : Zone) : Places := { p with zones := p.zones.set z v }

/-- The places with an arm's session record set. -/
def withSession (p : Places) (x : Arm) (c : Session) : Places := { p with session := Function.update p.session x c }

/-- R103: the waiter is granted the zone, and its session enters its first step. -/
def granted (p : Places) (y : Arm) (z : Nat) : Places :=
  if z = 0 ∧ (p.session y).state = .waitZone then (p.withZone z (.held y false false)).withSession y (entered (p.session y))
  else p.withZone z (.held y false false)

/-- R104: a zone released is free, or its waiter is granted it. -/
def released (p : Places) (z : Nat) : Places :=
  match p.zone z with
  | .free => p
  | .held h _ w => if w then p.granted (otherArm h) z else p.withZone z .free

/-- R105: a wait withdrawn: the zone keeps its holder. -/
def withdrawn (p : Places) (x : Arm) (z : Nat) : Places :=
  match p.zone z with
  | .held h r _ => if h = otherArm x then p.withZone z (.held h r false) else p
  | .free => p

theorem withdrawn_cases (p : Places) (x : Arm) (z : Nat) : p.withdrawn x z = p
    ∨ ∃ r w, p.zone z = .held (otherArm x) r w ∧ p.withdrawn x z = p.withZone z (.held (otherArm x) r false) := by
  unfold withdrawn
  split
  · next h r w hzone =>
    split
    · next hheld => subst hheld; exact .inr ⟨r, w, hzone, rfl⟩
    · exact .inl rfl
  · exact .inl rfl

theorem zone_withZone {p : Places} {z : Nat} (hz : z < p.zones.length) (v : Zone) :
    (p.withZone z v).zone = Function.update p.zone z v := by
  funext y
  simp only [zone, withZone, List.getD_eq_getElem?_getD, Function.update_apply, List.getElem?_set]
  by_cases h : z = y
  · subst h; simp [hz]
  · simp [h, Ne.symm h]

@[simp] theorem zone_withSession (p : Places) (x : Arm) (c : Session) : (p.withSession x c).zone = p.zone := rfl

theorem session_withSession (p : Places) (x : Arm) (c : Session) :
    (p.withSession x c).session = Function.update p.session x c := rfl

@[simp] theorem session_withZone (p : Places) (z : Nat) (v : Zone) : (p.withZone z v).session = p.session := rfl

end Places

section
variable (s : State) (x : Arm) (z : Nat)

theorem zone_placesOf : (placesOf s).zone z = zoneOf s z := rfl

theorem placesOf_grantZone : placesOf (grantZone x z s) = (placesOf s).granted x z := by
  unfold grantZone Places.granted
  dsimp only
  have hset : placesOf (post (.zone x) (.granted z) (setZone z (.held x false false) s))
      = (placesOf s).withZone z (.held x false false) := placesOf_post _ _ _
  have hstate : ((placesOf s).session x).state = (sessionOf s x).state := rfl
  rw [hstate]
  split
  · rw [placesOf_enterStep, hset]
    rfl
  · exact hset

theorem placesOf_releaseZone (announce : Bool) : placesOf (releaseZone announce z s) = (placesOf s).released z := by
  unfold releaseZone Places.released
  rw [zone_placesOf]
  cases zoneOf s z with
  | free => rfl
  | held h r w =>
    dsimp only
    have hposted : placesOf (if (announce || w) = true then post (.zone h) (.released z) s else s) = placesOf s := by
      split
      · exact placesOf_post _ _ _
      · rfl
    cases w with
    | true => exact (placesOf_grantZone _ _ _).trans (by rw [hposted]; rfl)
    | false => exact (placesOf_setZone _ _ _).trans (by rw [hposted]; rfl)

/-- What asking for a release does to the places: nothing, the release, or the RELEASING mark (R104). -/
theorem placesOf_askRelease : placesOf (askRelease x z s) = placesOf s
    ∨ ∃ w, zoneOf s z = .held x false w ∧ (placesOf (askRelease x z s) = (placesOf s).released z
      ∨ placesOf (askRelease x z s) = (placesOf s).withZone z (.held x true w)) := by
  unfold askRelease
  split
  · next h r w hzone =>
    split
    · next hheld =>
      obtain ⟨rfl, rfl⟩ := hheld
      refine .inr ⟨w, hzone, ?_⟩
      split
      · exact .inl (placesOf_releaseZone s z false)
      · exact .inr (placesOf_setZone s z _)
    · exact .inl rfl
  · exact .inl rfl

theorem placesOf_withdrawWait : placesOf (withdrawWait x z s) = (placesOf s).withdrawn x z := by
  unfold withdrawWait Places.withdrawn
  rw [zone_placesOf]
  cases zoneOf s z with
  | free => rfl
  | held h r w =>
    dsimp only
    split
    · exact placesOf_setZone s z _
    · rfl

end

/-! ### The order of the zones -/

/-- Whether a reservation has a waiter. -/
def waited : Zone → Bool
  | .held _ _ w => w
  | .free => false

/-- R80: the place of an arm's session at zone 0, by the session's state. -/
def PlacedAt (v : Zone) (x : Arm) : SessionState → Prop
  | .idle => True
  | .waitZone => ∃ r, v = .held (otherArm x) r true
  | .drop | .pick | .fault => ∃ w, v = .held x false w

/-- No arm. -/
abbrev nobody : Arm → Prop := fun _ => False

/-- The zones in order, the arms of a set left out: their sessions are about to change. -/
structure Ordered (out : Arm → Prop) (p : Places) : Prop where
  size  : p.zones.length = 8
  one   : ∀ y z, waited (p.zone y) = true → waited (p.zone z) = true → y = z
  place : ∀ x, ¬ out x → PlacedAt (p.zone 0) x (p.session x).state

section
variable {p : Places} {out : Arm → Prop} {x y : Arm} {z : Nat} {v : Zone}

theorem PlacedAt.idle_of_releasing {c : SessionState} {w : Bool} (h : PlacedAt (.held x true w) x c) : c = .idle := by
  cases c with
  | idle => rfl
  | waitZone => cases x <;> simp [PlacedAt, otherArm] at h
  | drop | pick | fault => simp [PlacedAt] at h

/-- A session holds zone 0, or is idle, while its arm holds the zone. -/
theorem PlacedAt.not_waiting {c : SessionState} {r w : Bool} (h : PlacedAt (.held x r w) x c) : c ≠ .waitZone := by
  rintro rfl
  cases x <;> simp [PlacedAt, otherArm] at h

theorem PlacedAt.idle_or_waiting {c : SessionState} {r w : Bool} (h : PlacedAt (.held (otherArm x) r w) x c) :
    c = .idle ∨ c = .waitZone := by
  cases c with
  | idle => exact .inl rfl
  | waitZone => exact .inr rfl
  | drop | pick | fault => cases x <;> simp [PlacedAt, otherArm] at h

theorem PlacedAt.idle_of_free {c : SessionState} (h : PlacedAt .free x c) : c = .idle := by
  cases c with
  | idle => rfl
  | waitZone | drop | pick | fault => simp [PlacedAt] at h

namespace Ordered

theorem weaken {out' : Arm → Prop} (h : Ordered out p) (hout : ∀ x, out x → out' x) : Ordered out' p :=
  ⟨h.size, h.one, fun x hx => h.place x (fun hin => hx (hout x hin))⟩

/-- Setting a reservation keeps the order: a waiter only where no other zone has one, the sessions at their places. -/
theorem setZone (h : Ordered out p) (hz : z < 8) (hone : waited v = true → ∀ y, waited (p.zone y) = true → y = z)
    (hplace : z = 0 → ∀ x, ¬ out x → PlacedAt v x (p.session x).state) : Ordered out (p.withZone z v) := by
  have hzone := Places.zone_withZone (p := p) (z := z) (by rw [h.size]; exact hz) v
  refine ⟨by simp [Places.withZone, h.size], ?_, fun x hx => ?_⟩
  · rw [hzone]
    intro a b ha hb
    by_cases haz : a = z <;> by_cases hbz : b = z <;> simp only [Function.update_apply, haz, hbz, if_true, if_false] at ha hb
    · exact haz.trans hbz.symm
    · exact absurd (hone ha b hb) hbz
    · exact absurd (hone hb a ha) haz
    · exact h.one a b ha hb
  · rw [hzone, Function.update_apply, Places.session_withZone]
    split
    · next h0 => exact hplace h0.symm x hx
    · exact h.place x hx

theorem setSession {c : Session} (h : Ordered (fun y => out y ∨ y = x) p) (hc : ¬ out x → PlacedAt (p.zone 0) x c.state) :
    Ordered out (p.withSession x c) := by
  refine ⟨h.size, h.one, fun y hy => ?_⟩
  rw [Places.zone_withSession, Places.session_withSession]
  by_cases hyx : y = x
  · subst hyx
    simpa using hc hy
  · simpa [hyx] using h.place y (by tauto)

/-- Zones out of the table are free. -/
theorem lt_of_held (h : Ordered out p) {g : Arm} {r w : Bool} (hz : p.zone z = .held g r w) : z < 8 := by
  by_contra hge
  simp [Places.zone, List.getElem?_eq_none (by rw [h.size]; omega : p.zones.length ≤ z)] at hz

/-- R103: a grant to the waiter keeps the order, once the former holder's session is idle or left out. -/
theorem granted {r : Bool} (h : Ordered out p) (hzone : p.zone z = .held (otherArm y) r true)
    (hidle : z = 0 → ¬ out (otherArm y) → (p.session (otherArm y)).state = .idle) : Ordered out (p.granted y z) := by
  have hz := h.lt_of_held hzone
  unfold Places.granted
  split
  · next hw =>
    obtain ⟨rfl, hw⟩ := hw
    refine setSession (setZone (h.weaken (fun _ => .inl)) hz (by simp [waited]) (fun _ x hx => ?_)) (fun _ => ?_)
    · obtain ⟨hout, hne⟩ := not_or.1 hx
      have hx : x = otherArm y := by cases x <;> cases y <;> simp_all [otherArm]
      subst hx
      rw [hidle rfl hout]
      trivial
    · rw [Places.zone_withZone (by rw [h.size]; exact hz)]
      unfold entered
      split <;> exact ⟨false, by simp⟩
  · next hw =>
    refine h.setZone hz (by simp [waited]) (fun h0 x hx => ?_)
    subst h0
    by_cases hxy : x = y
    · subst hxy
      have hplace := h.place x hx
      rw [hzone] at hplace
      rw [hplace.idle_or_waiting.resolve_right (fun hwait => hw ⟨rfl, hwait⟩)]
      trivial
    · have hxy : x = otherArm y := by cases x <;> cases y <;> simp_all [otherArm]
      subst hxy
      rw [hidle rfl hx]
      trivial

theorem released {g : Arm} {r w : Bool} (h : Ordered out p) (hzone : p.zone z = .held g r w)
    (hidle : z = 0 → ¬ out g → (p.session g).state = .idle) : Ordered out (p.released z) := by
  have hother : otherArm (otherArm g) = g := by cases g <;> rfl
  unfold Places.released
  rw [hzone]
  cases w with
  | true => exact h.granted (y := otherArm g) (r := r) (by rw [hother]; exact hzone) (by rw [hother]; exact hidle)
  | false =>
    refine h.setZone (h.lt_of_held hzone) (by simp [waited]) (fun h0 x hx => ?_)
    subst h0
    have hplace := h.place x hx
    rw [hzone] at hplace
    by_cases hxg : x = g
    · subst hxg
      rw [hidle rfl hx]
      trivial
    · have hxg : g = otherArm x := by cases x <;> cases g <;> simp_all [otherArm]
      subst hxg
      cases hstate : (p.session x).state with
      | idle => trivial
      | waitZone => simp [hstate, PlacedAt] at hplace
      | drop | pick | fault => cases x <;> simp [hstate, PlacedAt, otherArm] at hplace

end Ordered
end

/-! ### The invariant as the order of the zones -/

section
variable {s t : State} {out : Arm → Prop} {x : Arm} {z : Nat}

theorem placedAt_waiting {s : State} {x : Arm} : waitsOn s x 0 = true ↔ PlacedAt (zoneOf s 0) x .waitZone := by
  unfold waitsOn
  cases zoneOf s 0 with
  | free => simp [PlacedAt]
  | held h r w => simp [PlacedAt]

theorem placedAt_holding {s : State} {x : Arm} : keepsZone0 s x = true ↔ ∃ w, zoneOf s 0 = .held x false w := by
  unfold keepsZone0
  simp [Bool.exists_bool]

theorem ordered_iff (hsize : s.mgd.zones.length = 8) : ZonesOrderly s ↔ Ordered nobody (placesOf s) := by
  have hwaited (z : Nat) : zoneWaited s z = waited ((placesOf s).zone z) := by
    show zoneWaited s z = waited (zoneOf s z)
    unfold zoneWaited waited
    cases zoneOf s z <;> rfl
  have hlt {z : Nat} (h : waited ((placesOf s).zone z) = true) : z < 8 := by
    by_contra hge
    have hfree : (placesOf s).zone z = .free := by
      simp [zone_placesOf, zoneOf, List.getElem?_eq_none (by rw [hsize]; omega : s.mgd.zones.length ≤ z)]
    rw [hfree] at h
    cases h
  have hplace (x : Arm) : (((sessionOf s x).state = .waitZone → waitsOn s x 0 = true)
      ∧ ((inStep (sessionOf s x) = true ∨ (sessionOf s x).state = .fault) → keepsZone0 s x = true))
      ↔ PlacedAt (zoneOf s 0) x (sessionOf s x).state := by
    rw [placedAt_waiting, placedAt_holding]
    cases hstate : (sessionOf s x).state <;> simp [inStep, hstate, PlacedAt]
  constructor
  · rintro ⟨hone, hall⟩
    exact ⟨hsize, fun y z hy hz => hone y (hlt hy) z (hlt hz) (by rw [hwaited, hy]) (by rw [hwaited, hz]),
      fun x _ => (hplace x).1 (hall x)⟩
  · rintro ⟨-, hone, hall⟩
    exact ⟨fun y _ z _ hy hz => hone y z (by rw [← hwaited, hy]) (by rw [← hwaited, hz]),
      fun x => (hplace x).2 (hall x (fun h => h))⟩

/-! ### The functions of the block -/

theorem Ordered.of_eq (h : Ordered out (placesOf s)) (heq : placesOf t = placesOf s) : Ordered out (placesOf t) := heq ▸ h

theorem Ordered.askRelease (h : Ordered out (placesOf s))
    (hidle : z = 0 → ¬ out x → (sessionOf s x).state = .idle) : Ordered out (placesOf (askRelease x z s)) := by
  obtain heq | ⟨w, hzone, heq | heq⟩ := placesOf_askRelease s x z <;> rw [heq]
  · exact h
  · exact h.released hzone hidle
  · refine h.setZone (h.lt_of_held hzone) (fun hw y hy => h.one y z hy (by rw [zone_placesOf, hzone]; exact hw))
      (fun h0 y hy => ?_)
    subst h0
    have hplace := h.place y hy
    rw [zone_placesOf, hzone] at hplace
    by_cases hyx : y = x
    · subst hyx
      rw [show ((placesOf s).session y).state = (sessionOf s y).state from rfl, hidle rfl hy]
      trivial
    · have hyx : x = otherArm y := by cases x <;> cases y <;> simp_all [otherArm]
      subst hyx
      cases hstate : ((placesOf s).session y).state with
      | idle => trivial
      | waitZone =>
        simp only [hstate, PlacedAt, Zone.held.injEq, true_and] at hplace
        obtain ⟨-, -, rfl⟩ := hplace
        exact ⟨true, rfl⟩
      | drop | pick | fault => cases y <;> simp [hstate, PlacedAt, otherArm] at hplace

theorem Ordered.withdrawWait (h : Ordered out (placesOf s))
    (hidle : z = 0 → ¬ out x → (sessionOf s x).state ≠ .waitZone) : Ordered out (placesOf (withdrawWait x z s)) := by
  rw [placesOf_withdrawWait]
  obtain heq | ⟨r, w, hzone, heq⟩ := (placesOf s).withdrawn_cases x z <;> rw [heq]
  · exact h
  · refine h.setZone (h.lt_of_held hzone) (by simp [waited]) (fun h0 y hy => ?_)
    subst h0
    have hplace := h.place y hy
    rw [hzone] at hplace
    by_cases hyx : y = x
    · subst hyx
      rw [hplace.idle_or_waiting.resolve_right (hidle rfl hy)]
      trivial
    · have hyx : y = otherArm x := by cases x <;> cases y <;> simp_all [otherArm]
      subst hyx
      cases hstate : ((placesOf s).session (otherArm x)).state with
      | idle => trivial
      | waitZone => exact absurd hstate hplace.not_waiting
      | drop | pick | fault =>
        simp only [hstate, PlacedAt, Zone.held.injEq, true_and] at hplace
        obtain ⟨_, rfl, -⟩ := hplace
        exact ⟨false, rfl⟩

end

end Sys2Proof.Proofs
end

section
/-! The zones (O9): every move keeps their order. -/
namespace Sys2Proof.Proofs

open Sys2Proof.Machine Sys2Proof.Laws

section
variable {s t u : State} {out : Arm → Prop} {x y : Arm} {z : Nat}

/-! ### Sessions -/

/-- The order sees the reservations and the session records alone. -/
theorem Ordered.of_sameZones {p q : Places} (h : Ordered out p) (hzones : q.zones = p.zones) (hsession : q.session = p.session) :
    Ordered out q := by
  obtain ⟨_, _, _, _⟩ := q
  subst hzones hsession
  exact ⟨h.size, h.one, h.place⟩

theorem Ordered.of_eqPlaces (h : Ordered out (placesOf s)) (heq : placesOf t = placesOf s) : Ordered out (placesOf t) := heq ▸ h

/-- A session that stays in its steps, or ends, keeps its place. -/
theorem Ordered.onSession {f g : Session → Session} (h : Ordered out (placesOf s)) (hf : ∀ c, untimed (f c) = g (untimed c))
    (hplace : ∀ c, ¬ out x → PlacedAt (zoneOf s 0) x (sessionOf s x).state → c = untimed (sessionOf s x) →
      PlacedAt (zoneOf s 0) x (g c).state) : Ordered out (placesOf (onSession x f s)) := by
  rw [placesOf_onSession s x hf]
  exact Ordered.setSession (h.weaken (fun _ => .inl)) (fun hx => hplace _ hx (h.place x hx) rfl)

theorem Ordered.clearSession (h : Ordered (fun y => out y ∨ y = x) (placesOf s)) :
    Ordered out (placesOf (clearSession x s)) := by
  rw [placesOf_clearSession]
  exact h.setSession (fun _ => trivial)

/-- R88, R91: the end of a session that asks for the release of zone 0. -/
theorem Ordered.endSession (h : Ordered nobody (placesOf s)) :
    Ordered nobody (placesOf (Machine.clearSession x (onTrigger x restored (Machine.askRelease x 0 s)))) :=
  Ordered.clearSession (((h.weaken (fun _ => .inl)).askRelease (fun _ hout => absurd (.inr rfl) hout)).of_eqPlaces
    (placesOf_onTrigger _ x _))

theorem Ordered.completeSession (h : Ordered nobody (placesOf s)) : Ordered nobody (placesOf (completeSession x s)) :=
  Ordered.endSession (h.of_eqPlaces (placesOf_post s _ _))

theorem placesOf_cancelWaiting :
    placesOf (cancelWaiting x s) = ((placesOf s).withdrawn x 0).withSession x Session.idle := by
  unfold cancelWaiting
  rw [placesOf_clearSession, placesOf_onTrigger, placesOf_withdrawWait]
  rfl

theorem Ordered.cancelWaiting (h : Ordered out (placesOf s)) : Ordered out (placesOf (cancelWaiting x s)) :=
  Ordered.clearSession (((h.weaken (fun _ => .inl)).withdrawWait (fun _ hout => absurd (.inr rfl) hout)).of_eqPlaces
    (placesOf_onTrigger _ x _))

theorem PlacedAt.fault_of_step {v : Zone} {c : Session} (h : PlacedAt v x c.state)
    (hstep : inStep c = true ∨ c.state = .fault) : PlacedAt v x .fault := by
  cases hstate : c.state <;> simp_all [inStep, PlacedAt]

theorem Ordered.enterFault {c : FaultCause} {d : Detail} (h : Ordered out (placesOf s))
    (hstep : inStep (sessionOf s x) = true ∨ (sessionOf s x).state = .fault) :
    Ordered out (placesOf (enterFault x c d s)) := by
  obtain ⟨heq, -⟩ | heq := placesOf_enterFault s x c d <;> rw [heq]
  · exact h
  · exact Ordered.setSession (h.weaken (fun _ => .inl)) (fun hx => (h.place x hx).fault_of_step (c := sessionOf s x) hstep)

/-! ### Claims -/

theorem claimOutcome_congr (h : t.mgd.zones = s.mgd.zones) : claimOutcome t x z = claimOutcome s x z := by
  simp only [claimOutcome, waits, waitsOn, zoneOf, h] <;> rfl

theorem claimOutcome_of_free (h : zoneOf s z = .free) : claimOutcome s x z = .granted := by simp [claimOutcome, h]

theorem claimOutcome_of_held {g : Arm} {r w : Bool} (h : zoneOf s z = .held g r w) : claimOutcome s x z
    = if g = x then .kept else if w then .alreadyWaiting else if waits s x then .busy
      else if waits s (otherArm x) then .deadlock else .queued := by simp [claimOutcome, h]

theorem PlacedAt.unmarked {g : Arm} {r w : Bool} {c : SessionState} (h : PlacedAt (.held g r w) y c) :
    PlacedAt (.held g false w) y c := by
  cases c <;> simp_all [PlacedAt]

theorem PlacedAt.waited {g : Arm} {r w : Bool} {c : SessionState} (h : PlacedAt (.held g r w) y c) :
    PlacedAt (.held g r true) y c := by
  cases c <;> simp_all [PlacedAt]

/-- No arm waits: no zone has a waiter. -/
theorem not_waited_of_waits (h : ∀ x, waits s x = false) (hz : z < 8) : Proofs.waited (zoneOf s z) = false := by
  cases hzone : zoneOf s z with
  | free => rfl
  | held g r w =>
    have hwaits := h (otherArm g)
    simp only [waits, List.any_eq_false, List.mem_range] at hwaits
    have hother : g = otherArm (otherArm g) := by cases g <;> rfl
    simpa [waitsOn, hzone, ← hother, Proofs.waited] using hwaits z hz

/-- What a claim does to the zone, by its outcome (R102). -/
theorem claim_cases (s : State) (x : Arm) (z : Nat) :
    (claimOutcome s x z = .granted ∧ zoneOf s z = .free ∧ applyClaim x z s = setZone z (.held x false false) s)
      ∨ (∃ r w, claimOutcome s x z = .kept ∧ zoneOf s z = .held x r w ∧ applyClaim x z s = setZone z (.held x false w) s)
      ∨ (∃ r, claimOutcome s x z = .alreadyWaiting ∧ zoneOf s z = .held (otherArm x) r true ∧ applyClaim x z s = s)
      ∨ (∃ r, claimOutcome s x z = .queued ∧ zoneOf s z = .held (otherArm x) r false ∧ (∀ y, waits s y = false)
        ∧ applyClaim x z s = setZone z (.held (otherArm x) r true) s)
      ∨ ((claimOutcome s x z = .busy ∨ claimOutcome s x z = .deadlock) ∧ applyClaim x z s = s) := by
  have hother {g : Arm} (h : g ≠ x) : g = otherArm x := by
    revert h
    cases g <;> cases x <;> decide
  cases hzone : zoneOf s z with
  | free =>
    have hout := claimOutcome_of_free (x := x) hzone
    exact .inl ⟨hout, rfl, by simp only [applyClaim, hout]⟩
  | held g r w =>
    have hout := claimOutcome_of_held (x := x) hzone
    split_ifs at hout with hg hw hx hy
    · subst hg
      exact .inr (.inl ⟨r, w, hout, rfl, by simp only [applyClaim, hout, hzone]⟩)
    · obtain rfl := hother hg
      subst hw
      exact .inr (.inr (.inl ⟨r, hout, rfl, by simp only [applyClaim, hout]⟩))
    · exact .inr (.inr (.inr (.inr ⟨.inl hout, by simp only [applyClaim, hout]⟩)))
    · exact .inr (.inr (.inr (.inr ⟨.inr hout, by simp only [applyClaim, hout]⟩)))
    · obtain rfl := hother hg
      obtain rfl : w = false := by simpa using hw
      refine .inr (.inr (.inr (.inl ⟨r, hout, rfl, fun y => ?_, by simp only [applyClaim, hout, hzone]⟩)))
      by_cases hyx : y = x
      · subst hyx; simpa using hx
      · rw [show y = otherArm x from hother hyx]; simpa using hy

theorem Ordered.applyClaim (h : Ordered out (placesOf s)) (hz : z < 8) : Ordered out (placesOf (applyClaim x z s)) := by
  obtain ⟨-, hzone, heq⟩ | ⟨r, w, -, hzone, heq⟩ | ⟨r, -, -, heq⟩ | ⟨r, -, hzone, hwaits, heq⟩ | ⟨-, heq⟩ := claim_cases s x z
    <;> rw [heq]
  · refine h.setZone hz (by simp [Proofs.waited]) (fun h0 y hy => ?_)
    have hplace := h.place y hy
    rw [zone_placesOf, ← h0, hzone] at hplace
    rw [hplace.idle_of_free]
    trivial
  · refine h.setZone hz (fun hw y hy => h.one y z hy (by rw [zone_placesOf, hzone]; exact hw)) (fun h0 y hy => ?_)
    have hplace := h.place y hy
    rw [zone_placesOf, ← h0, hzone] at hplace
    exact hplace.unmarked
  · exact h
  · refine h.setZone hz (fun _ y hy => ?_) (fun h0 y hy => ?_)
    · have hy8 : y < 8 := by
        cases hyz : (placesOf s).zone y with
        | free => rw [hyz] at hy; cases hy
        | held g r w => exact h.lt_of_held hyz
      have hno := not_waited_of_waits hwaits hy8
      rw [zone_placesOf, hno] at hy
      cases hy
    · have hplace := h.place y hy
      rw [zone_placesOf, ← h0, hzone] at hplace
      exact hplace.waited
  · exact h

/-- Zone 0 after a claim of it that is not refused: the claimer holds it, or waits on it (R102). -/
theorem placedAt_claim (hsize : 0 < s.mgd.zones.length) (hbusy : claimOutcome s x 0 ≠ .busy)
    (hdeadlock : claimOutcome s x 0 ≠ .deadlock) :
    (claimResult (claimOutcome s x 0) = .done ∧ ∃ w, zoneOf (applyClaim x 0 s) 0 = .held x false w)
      ∨ (claimResult (claimOutcome s x 0) ≠ .done ∧ ∃ r, zoneOf (applyClaim x 0 s) 0 = .held (otherArm x) r true) := by
  have hset (v : Zone) : zoneOf (setZone 0 v s) 0 = v := by simp [zoneOf, setZone, hsize]
  obtain ⟨hout, hzone, heq⟩ | ⟨r, w, hout, hzone, heq⟩ | ⟨r, hout, hzone, heq⟩ | ⟨r, hout, hzone, -, heq⟩ | ⟨hout, heq⟩ :=
    claim_cases s x 0 <;> rw [heq]
  · exact .inl ⟨by rw [hout]; rfl, false, hset _⟩
  · exact .inl ⟨by rw [hout]; rfl, w, hset _⟩
  · exact .inr ⟨by rw [hout]; decide, r, hzone⟩
  · exact .inr ⟨by rw [hout]; decide, r, hset _⟩
  · exact absurd hout (not_or.2 ⟨hbusy, hdeadlock⟩)

/-- The session record that a CHANGE_BEGIN fills (R82). -/
def filledSession (s : State) (x : Arm) (drop pick : Option Nat) : Session :=
  ⟨.waitZone, mountedTip s x, drop, pick, pick.bind (portHolding s), none, none⟩

/-- The state with the session record filled and the trigger suppressed, before the claim (R82). -/
def fillSession (x : Arm) (drop pick : Option Nat) (s : State) : State :=
  onTrigger x suppressed (s.onPcc x (fun p => { p with session := filledSession s x drop pick, consistent := true }))

theorem beginSession_eq (drop pick : Option Nat) : beginSession x drop pick s
    = if claimResult (claimOutcome s x 0) = .done then enterStep x (applyClaim x 0 (fillSession x drop pick s))
      else applyClaim x 0 (fillSession x drop pick s) := rfl

theorem placesOf_fillSession (drop pick : Option Nat) :
    placesOf (fillSession x drop pick s) = (placesOf s).withSession x (filledSession s x drop pick) := by
  unfold fillSession
  rw [placesOf_onTrigger, placesOf_onPcc]
  rfl

theorem session_applyClaim : (placesOf (applyClaim x z s)).session = (placesOf s).session := by
  have hpcc := ((applyClaim_touches (bs := [.mgd]) x z (by simp)).2 (.refl _ s)).pcc (by decide)
  simp only [placesOf, sessionOf, State.pccOf, hpcc]

theorem Ordered.beginSession {drop pick : Option Nat} (h : Ordered nobody (placesOf s))
    (hbusy : claimOutcome s x 0 ≠ .busy) (hdeadlock : claimOutcome s x 0 ≠ .deadlock) :
    Ordered nobody (placesOf (beginSession x drop pick s)) := by
  have hout : Ordered (fun y => y = x) (placesOf (fillSession x drop pick s)) := by
    rw [placesOf_fillSession]
    exact Ordered.setSession (h.weaken (fun _ => False.elim)) (fun hx => absurd rfl hx)
  have hclaimed := hout.applyClaim (x := x) (z := 0) (by omega)
  have hsame : claimOutcome (fillSession x drop pick s) x 0 = claimOutcome s x 0 := claimOutcome_congr rfl
  have hsize : 0 < (fillSession x drop pick s).mgd.zones.length := by
    have : (fillSession x drop pick s).mgd.zones.length = 8 := hout.size
    omega
  have hplaced := placedAt_claim hsize (hsame ▸ hbusy) (hsame ▸ hdeadlock)
  rw [hsame] at hplaced
  rw [beginSession_eq]
  obtain ⟨hdone, w, hzone⟩ | ⟨hdone, r, hzone⟩ := hplaced
  · rw [if_pos hdone, placesOf_enterStep]
    refine Ordered.setSession (hclaimed.weaken (fun _ => .inr)) (fun _ => ?_)
    rw [zone_placesOf]
    unfold entered
    split <;> exact ⟨w, hzone⟩
  · rw [if_neg hdone]
    refine ⟨hclaimed.size, hclaimed.one, fun y _ => ?_⟩
    by_cases hyx : y = x
    · subst hyx
      rw [session_applyClaim, placesOf_fillSession, Places.session_withSession, Function.update_self, zone_placesOf]
      exact ⟨r, hzone⟩
    · exact hclaimed.place y hyx

/-! ### Completions, mismatches, configuration and resets -/

/-- A mismatch changes the places of the other arm by a cancellation, or not at all (R95). -/
theorem placesOf_disturb {m : Nat} {lost headLast : Bool} :
    expectsTip s y m = false ∧ placesOf (disturb y m lost headLast s) = placesOf s
    ∨ expectsTip s y m = true ∧ placesOf (disturb y m lost headLast s) = placesOf (cancelWaiting y s) := by
  have hlost (u : State) : placesOf (whenDo lost (losesTip y) u) = placesOf u :=
    placesOf_whenDo u (fun u => by simp [losesTip]) lost
  have hhead (u : State) : placesOf (whenDo lost (postHead y) u) = placesOf u :=
    placesOf_whenDo u (fun u => by simp [postHead]) lost
  have hmark (u : State) : placesOf (whenDo lost (markHead y) u) = placesOf u := by
    refine placesOf_whenDo u (fun u => ?_) lost
    unfold markHead
    split
    · exact placesOf_onPcc_same u y rfl
    · rfl
  have hposted (b : Bool) (u : State) : placesOf (whenDo b (post (.change y) .cancelled) u) = placesOf u :=
    placesOf_whenDo u (fun u => by simp) b
  have hends (b : Bool) (u : State) :
      placesOf (if headLast = true then whenDo lost (postHead y) (whenDo b (post (.change y) .cancelled) u)
        else whenDo b (post (.change y) .cancelled) (whenDo lost (postHead y) u)) = placesOf u := by
    split
    · exact (hhead _).trans (hposted b u)
    · exact (hposted b _).trans (hhead u)
  unfold disturb
  dsimp only
  rw [hmark, hends]
  cases hexpects : expectsTip s y m with
  | false => exact .inl ⟨rfl, hlost s⟩
  | true =>
    refine .inr ⟨rfl, ?_⟩
    simp only [whenDo, cancelByMismatch, if_true, placesOf_raise]
    rw [placesOf_cancelWaiting, placesOf_cancelWaiting]
    rw [show placesOf (if lost = true then losesTip y s else s) = placesOf s from hlost s]

/-- A mismatch leaves the session of the arm that picked as it is. -/
theorem session_disturb {m : Nat} {lost headLast : Bool} :
    (placesOf (disturb (otherArm x) m lost headLast s)).session x = (placesOf s).session x := by
  have hx : x ≠ otherArm x := by cases x <;> decide
  have hkeeps (p : Places) : (p.withdrawn (otherArm x) 0).session = p.session := by
    obtain h | ⟨_, _, -, h⟩ := p.withdrawn_cases (otherArm x) 0 <;> rw [h]
    rfl
  obtain ⟨-, heq⟩ | ⟨-, heq⟩ := placesOf_disturb (s := s) (y := otherArm x) (m := m) (lost := lost) (headLast := headLast)
    <;> rw [heq]
  rw [placesOf_cancelWaiting, Places.session_withSession, Function.update_of_ne hx, hkeeps]

theorem session_unverifyFormer {l : TipLocation} {p : Nat} :
    (placesOf (unverifyFormer l p s)).zones = (placesOf s).zones
      ∧ (placesOf (unverifyFormer l p s)).session = (placesOf s).session := by
  unfold unverifyFormer
  split
  · split <;> exact ⟨rfl, rfl⟩
  · exact ⟨rfl, rfl⟩

theorem Ordered.dropDone (h : Ordered nobody (placesOf s)) (hdrop : (sessionOf s x).state = .drop) :
    Ordered nobody (placesOf (dropDone x s)) := by
  unfold Machine.dropDone
  dsimp only
  split
  · next t p ht hp =>
    have hplaced : placesOf (emptyHistory x (setPort p (.holds t) (moveTip t (.port p) s)))
        = placesOf (setPort p (.holds t) (moveTip t (.port p) s)) := placesOf_emptyHistory _ x
    have hordered : Ordered nobody (placesOf (emptyHistory x (setPort p (.holds t) (moveTip t (.port p) s)))) :=
      hplaced ▸ h.of_sameZones rfl rfl
    split
    · have hmark : placesOf ((emptyHistory x (setPort p (.holds t) (moveTip t (.port p) s))).onPcc x
          (fun q => { q with changeDue := false }))
          = placesOf (setPort p (.holds t) (moveTip t (.port p) s)) := (placesOf_onPcc_same _ x rfl).trans hplaced
      refine Ordered.onSession (g := fun c => { c with state := .pick, timer := some 0 }) (hordered.of_eqPlaces (by
        rw [hmark, hplaced])) (fun _ => rfl) (fun c _ hplace _ => ?_)
      have hstate : (sessionOf ((emptyHistory x (setPort p (.holds t) (moveTip t (.port p) s))).onPcc x
          (fun q => { q with changeDue := false })) x).state = .drop := by
        have := congrArg (fun q => (q.session x).state) hmark
        exact this.trans hdrop
      rw [hstate] at hplace
      exact hplace
    · exact hordered.completeSession
  · exact h

theorem Ordered.pickDone {headLast : Bool} (h : Ordered nobody (placesOf s)) (hpick : (sessionOf s x).state = .pick) :
    Ordered nobody (placesOf (pickDone x headLast s)) := by
  have hin (u : State) (hu : (placesOf u).session x = (placesOf s).session x) :
      inStep (sessionOf u x) = true ∨ (sessionOf u x).state = .fault := by
    have hstate : (sessionOf u x).state = .pick := (congrArg Session.state hu).trans hpick
    simp [inStep, hstate]
  unfold Machine.pickDone
  dsimp only
  split
  · next e p _ _ =>
    split
    · exact Ordered.completeSession (Ordered.of_eqPlaces (h.of_sameZones (q := placesOf (setPort p .empty
        (moveTip e (.onArm x) s))) rfl rfl) (placesOf_emptyHistory _ x))
    · exact Ordered.enterFault (h.of_sameZones rfl rfl) (hin _ rfl)
    · next m _ =>
      let u := unverifyFormer (tipOf s m).location p (setPort p .empty (moveTip e .unknown (moveTip m (.onArm x) s)))
      obtain ⟨hzones, hsession⟩ : (placesOf u).zones = (placesOf s).zones ∧ (placesOf u).session = (placesOf s).session :=
        session_unverifyFormer
      have hhistory : placesOf (emptyHistory x u) = placesOf u := placesOf_emptyHistory u x
      have hordered : Ordered nobody (placesOf (emptyHistory x u)) := hhistory ▸ h.of_sameZones hzones hsession
      refine Ordered.enterFault ?_ (hin _ ?_)
      · obtain ⟨-, heq⟩ | ⟨-, heq⟩ := placesOf_disturb (s := emptyHistory x u) (y := otherArm x) (m := m)
          (lost := decide ((tipOf s m).location = .onArm (otherArm x))) (headLast := headLast) <;> refine heq ▸ ?_
        · exact hordered
        · exact hordered.cancelWaiting
      · rw [session_disturb, hhistory, hsession]
  · exact h

theorem placesOf_leaveRun : placesOf (leaveRun x s)
    = if (sessionOf s x).state = .waitZone then placesOf (cancelWaiting x s) else placesOf s := by
  unfold leaveRun
  dsimp only
  rw [placesOf_onThu, placesOf_onTrigger]
  split <;> rfl

theorem Ordered.leaveRun (h : Ordered out (placesOf s)) : Ordered out (placesOf (leaveRun x s)) := by
  rw [placesOf_leaveRun]
  split
  · exact h.cancelWaiting
  · exact h

theorem placesOf_enterConfig : placesOf (enterConfig s) = placesOf (leaveRun .b (leaveRun .a s)) := by
  rw [enterConfig_eq]
  exact (placesOf_addMode _).trans (placesOf_riu _ _)

theorem Ordered.reset {p : Places} (hzones : p.zones = List.replicate 8 .free) (hsession : p.session = fun _ => Session.idle) :
    Ordered nobody p := by
  have hfree (z : Nat) : p.zone z = .free := by
    simp only [Places.zone, hzones, List.getD_eq_getElem?_getD, List.getElem?_replicate]
    split <;> rfl
  refine ⟨by simp [hzones], fun y z hy => ?_, fun x _ => by rw [hsession]; trivial⟩
  rw [hfree] at hy
  cases hy

theorem placesOf_warmReset : placesOf (warmReset s)
    = ⟨(interruptSession .b (interruptSession .a s)).pcc.tips, (interruptSession .b (interruptSession .a s)).pcc.ports,
        List.replicate 8 .free, fun _ => Session.idle⟩ := by
  unfold warmReset
  rw [placesOf_addMode]
  simp only [placesOf, Places.mk.injEq, true_and]
  exact ⟨rfl, funext fun x => by cases x <;> rfl⟩

theorem placesOf_powerOn (a b : Bool) : placesOf (powerOn a b s) = placesOf State.reset := by
  simp only [placesOf, Places.mk.injEq]
  exact ⟨rfl, rfl, rfl, funext fun x => by cases x <;> rfl⟩

theorem evictTip_keeps (s : State) (p : Nat) (v : PortState) : (placesOf (evictTip p v s)).zones = (placesOf s).zones
    ∧ (placesOf (evictTip p v s)).session = (placesOf s).session := by
  unfold evictTip
  split
  · split <;> exact ⟨rfl, rfl⟩
  · exact ⟨rfl, rfl⟩

theorem placeTip_keeps (s : State) (p : Nat) (v : PortState) : (placesOf (placeTip p v s)).zones = (placesOf s).zones
    ∧ (placesOf (placeTip p v s)).session = (placesOf s).session := by
  unfold placeTip
  split <;> exact ⟨rfl, rfl⟩

theorem dismount_keeps (s : State) (x : Arm) : (placesOf (dismount x s)).zones = (placesOf s).zones
    ∧ (placesOf (dismount x s)).session = (placesOf s).session := by
  unfold dismount
  split <;> exact ⟨rfl, rfl⟩

theorem mount_keeps (s : State) (x : Arm) (t : Nat) : (placesOf (mount x t s)).zones = (placesOf s).zones
    ∧ (placesOf (mount x t s)).session = (placesOf s).session := by
  unfold mount
  split <;> exact ⟨rfl, rfl⟩

theorem PlaceMove.ordered (hm : PlaceMove s t) (h : Ordered nobody (placesOf s)) : Ordered nobody (placesOf t) := by
  cases hm with
  | drop x hd => exact h.dropDone hd
  | pick x headLast hp => exact h.pickDone hp
  | release z hdue =>
    unfold releaseDue at hdue
    split at hdue
    · next g w hzone =>
      rw [placesOf_releaseZone]
      refine h.released hzone (fun h0 hout => ?_)
      subst h0
      have hplace := h.place g hout
      rw [zone_placesOf, hzone] at hplace
      exact hplace.idle_of_releasing
    · cases hdue
  | fault x c d hf => exact h.enterFault hf
  | monitor r p =>
    unfold monitorPort
    split
    · exact h
    · split
      · exact Ordered.of_eqPlaces (h.of_sameZones (q := placesOf (setPort p .unverified (moveTip _ .unknown s))) rfl rfl)
          (placesOf_post _ _ _)
      · exact Ordered.of_eqPlaces (h.of_sameZones (q := placesOf (setPort p .unverified s)) rfl rfl) (placesOf_post _ _ _)
      · exact h
  | powerOn a b => exact placesOf_powerOn (s := s) a b ▸ Ordered.reset rfl (funext fun x => by cases x <;> rfl)
  | enterConfig => exact placesOf_enterConfig (s := s) ▸ h.leaveRun.leaveRun
  | warmReset => exact placesOf_warmReset (s := s) ▸ Ordered.reset rfl rfl
  | tipWritten | tipRemoved => exact h.of_sameZones rfl rfl
  | portSet p v =>
    obtain ⟨hzones, hsession⟩ := evictTip_keeps s p v
    obtain ⟨hzones', hsession'⟩ := placeTip_keeps (evictTip p v s) p v
    exact h.of_sameZones (q := placesOf (setPort p v (placeTip p v (evictTip p v s)))) (hzones'.trans hzones)
      (hsession'.trans hsession)
  | armTip x t =>
    obtain ⟨hzones, hsession⟩ := dismount_keeps s x
    obtain ⟨hzones', hsession'⟩ := mount_keeps (dismount x s) x t
    exact h.of_sameZones (hzones'.trans hzones) (hsession'.trans hsession)
  | claim x z hz => exact h.applyClaim hz
  | ask x z hidle => exact h.askRelease (fun h0 _ => by simpa [sessionIdle] using hidle h0)
  | withdraw x z hidle =>
    refine h.withdrawWait (fun h0 _ => ?_)
    have := hidle h0
    simp only [sessionIdle, decide_eq_true_eq] at this
    simp [this]
  | begin x drop pick hchecks =>
    simp only [firstRefusal_eq_none, changeChecks, List.forall_mem_cons, decide_eq_false_iff_not] at hchecks
    exact h.beginSession hchecks.2.2.2.2.2.2.2.1 hchecks.2.2.2.2.2.2.2.2.1
  | cancel x => exact h.cancelWaiting
  | abort x =>
    refine Ordered.endSession (h.of_eqPlaces ((placesOf_post _ _ _).trans (placesOf_whenDo s (fun u => by simp) _)))

end

theorem Move.ordered {s t : State} (hm : Move s t) (h : Ordered nobody (placesOf s)) : Ordered nobody (placesOf t) := by
  obtain heq | ⟨u, hu, heq⟩ := hm.displaces
  · exact heq ▸ h
  · exact heq ▸ hu.ordered h

/-- Settles O9: the order of the zones is kept by every move that changes the places. -/
theorem stepKeepsZones : Obligations.StepKeepsZones := by
  unfold Obligations.StepKeepsZones
  intro s t hnumbers hs h
  have hsize {u : State} (hu : NumbersBounded u) : u.mgd.zones.length = 8 := hu.2.2.2.2.2.2.2.2.2.1
  have hkept : NumbersBounded t ∧ Ordered nobody (placesOf t) :=
    step_keeps (P := fun u => NumbersBounded u ∧ Ordered nobody (placesOf u)) (fun _ _ => id)
      (fun hm hu => ⟨hm.numbersBounded hu.1, hm.ordered hu.2⟩) ⟨hnumbers, (ordered_iff (hsize hnumbers)).1 hs⟩ h
  exact (ordered_iff (hsize hkept.1)).2 hkept.2

end Sys2Proof.Proofs
end

section
/-! Where the tips are (O10): the locations, the ports and the sessions as functions of the tip, the port and the arm. -/
namespace Sys2Proof.Proofs

open Sys2Proof.Machine Sys2Proof.Laws

/-- The tips, the ports and the sessions as functions of the tip id, the port number and the arm; an id out of the table
stands for no tip. -/
structure Rack where
  loc     : Nat → TipLocation
  present : Nat → Bool
  code    : Nat → BitVec 16
  port    : Nat → PortState
  session : Arm → Session

/-- The rack of the places. -/
def rackOf (p : Places) : Rack where
  loc t     := if isTip t then (p.tips.getD (t - 1) Tip.reset).location else .absent
  present t := if isTip t then (p.tips.getD (t - 1) Tip.reset).present else false
  code t    := if isTip t then (p.tips.getD (t - 1) Tip.reset).code else 0
  port q    := p.ports.getD q .disabled
  session   := p.session

namespace Rack

/-- A tip's location set. -/
def move (r : Rack) (t : Nat) (l : TipLocation) : Rack := { r with loc := Function.update r.loc t l }

/-- A port's state set. -/
def setPort (r : Rack) (q : Nat) (v : PortState) : Rack := { r with port := Function.update r.port q v }

/-- An arm's session record set. -/
def withSession (r : Rack) (x : Arm) (c : Session) : Rack := { r with session := Function.update r.session x c }

end Rack

/-- The tip table and the rack have their sizes. -/
structure Whole (s : State) : Prop where
  tips  : s.pcc.tips.length = 32
  ports : s.pcc.ports.length = 12

section
variable {s : State} {x : Arm} {t q : Nat}

theorem Whole.of_numbersBounded (h : NumbersBounded s) : Whole s := ⟨h.2.2.2.2.2.2.2.1, h.2.2.2.2.2.2.2.2.1⟩

theorem rackOf_loc (h : isTip t) : (rackOf (placesOf s)).loc t = (tipOf s t).location := if_pos h

theorem rackOf_present (h : isTip t) : (rackOf (placesOf s)).present t = (tipOf s t).present := if_pos h

theorem rackOf_code (h : isTip t) : (rackOf (placesOf s)).code t = (tipOf s t).code := if_pos h

theorem rackOf_port : (rackOf (placesOf s)).port q = portOf s q := rfl

theorem isTip_of_loc (h : (rackOf (placesOf s)).loc t ≠ .absent) : isTip t := by
  by_contra hno
  exact h (if_neg hno)

theorem isTip_of_present (h : (rackOf (placesOf s)).present t = true) : isTip t := by
  by_contra hno
  rw [show (rackOf (placesOf s)).present t = false from if_neg hno] at h
  cases h

theorem isPort_of_port (hs : Whole s) (h : portOf s q ≠ .disabled) : isPort q := by
  by_contra hno
  simp [portOf, List.getElem?_eq_none (by rw [hs.ports]; exact not_lt.1 hno : s.pcc.ports.length ≤ q)] at h

theorem tipIdOk_iff : tipIdOk t = true ↔ isTip t := by simp [tipIdOk]

theorem tipOf_onTip (hs : Whole s) (ht : isTip t) {u : Nat} (hu : isTip u) (f : Tip → Tip) :
    tipOf (onTip t f s) u = if u = t then f (tipOf s u) else tipOf s u := by
  have hlt : u - 1 < s.pcc.tips.length := by rw [hs.tips]; omega
  simp only [tipOf, onTip, List.getD_eq_getElem?_getD, List.getElem?_modify, List.getElem?_eq_getElem hlt]
  by_cases h : u = t
  · subst h; simp
  · have : t - 1 ≠ u - 1 := by omega
    simp [h, this]

/-- A field of the tips after one tip's record is changed. -/
theorem field_onTip {β : Type} {g : Tip → β} {v : β} (hs : Whole s) (ht : isTip t) (f : Tip → Tip) :
    (fun u => if isTip u then g (tipOf (onTip t f s) u) else v)
      = Function.update (fun u => if isTip u then g (tipOf s u) else v) t (g (f (tipOf s t))) := by
  funext u
  by_cases hu : isTip u
  · rw [if_pos hu, tipOf_onTip hs ht hu, Function.update_apply]
    by_cases hut : u = t
    · subst hut; simp
    · simp [hut, hu]
  · have hut : u ≠ t := fun h => hu (h ▸ ht)
    simp [hu, hut]

theorem rackOf_onTip (hs : Whole s) (ht : isTip t) (f : Tip → Tip) :
    rackOf (placesOf (onTip t f s)) = { rackOf (placesOf s) with
      loc := Function.update (rackOf (placesOf s)).loc t (f (tipOf s t)).location,
      present := Function.update (rackOf (placesOf s)).present t (f (tipOf s t)).present,
      code := Function.update (rackOf (placesOf s)).code t (f (tipOf s t)).code } :=
  Rack.mk.injEq .. |>.mpr ⟨field_onTip (g := (·.location)) hs ht f, field_onTip (g := (·.present)) hs ht f,
    field_onTip (g := (·.code)) hs ht f, rfl, rfl⟩

theorem rackOf_moveTip (hs : Whole s) (ht : isTip t) (l : TipLocation) :
    rackOf (placesOf (moveTip t l s)) = (rackOf (placesOf s)).move t l := by
  rw [moveTip, rackOf_onTip hs ht]
  simp only [Rack.move, ← rackOf_present (s := s) ht, ← rackOf_code (s := s) ht, Function.update_eq_self]

theorem rackOf_setPort (hs : Whole s) (hq : isPort q) (v : PortState) :
    rackOf (placesOf (setPort q v s)) = (rackOf (placesOf s)).setPort q v := by
  have hlt : q < (placesOf s).ports.length := hs.ports ▸ hq
  simp only [rackOf, Rack.setPort, placesOf_setPort, Rack.mk.injEq, true_and, and_true]
  funext y
  rw [Function.update_apply]
  simp only [List.getD_eq_getElem?_getD, List.getElem?_set]
  by_cases h : q = y
  · subst h; simp [hlt]
  · simp [h, Ne.symm h]

theorem Whole.moveTip (hs : Whole s) (l : TipLocation) : Whole (moveTip t l s) :=
  ⟨by simp [Machine.moveTip, onTip, hs.tips], hs.ports⟩

theorem Whole.setPort (hs : Whole s) (v : PortState) : Whole (setPort q v s) :=
  ⟨hs.tips, by simp [Machine.setPort, hs.ports]⟩

theorem Whole.of_eq {u : State} (hs : Whole s) (h : placesOf u = placesOf s) : Whole u :=
  ⟨(congrArg (fun p => p.tips.length) h).trans hs.tips, (congrArg (fun p => p.ports.length) h).trans hs.ports⟩

/-- The tip that a search over the table finds first. -/
theorem mountedTip_eq_some (h : mountedTip s x = some t) : isTip t ∧ (tipOf s t).location = .onArm x := by
  have hmem := List.mem_of_find?_eq_some h
  simp only [List.mem_map, List.mem_range] at hmem
  obtain ⟨i, hi, rfl⟩ := hmem
  exact ⟨⟨by omega, by omega⟩, by simpa using List.find?_some h⟩

theorem mountedTip_eq_none (h : mountedTip s x = none) (ht : isTip t) : (tipOf s t).location ≠ .onArm x := by
  have hmem : t ∈ (List.range 32).map (· + 1) := by
    rw [List.mem_map]
    exact ⟨t - 1, List.mem_range.2 (by omega), by omega⟩
  simpa using List.find?_eq_none.1 h t hmem

/-- The mounted tip is the one whose location names the arm, where no two do. -/
theorem mountedTip_iff (hsingle : ∀ t u, isTip t → isTip u → (tipOf s t).location = .onArm x →
      (tipOf s u).location = .onArm x → t = u) (o : Option Nat) :
    mountedTip s x = o ↔ ∀ t, (rackOf (placesOf s)).loc t = .onArm x ↔ o = some t := by
  have hloc (t : Nat) : (rackOf (placesOf s)).loc t = .onArm x ↔ isTip t ∧ (tipOf s t).location = .onArm x := by
    constructor
    · intro h
      have ht : isTip t := isTip_of_loc (s := s) (by simp [h])
      exact ⟨ht, rackOf_loc ht ▸ h⟩
    · rintro ⟨ht, h⟩
      exact (rackOf_loc ht).trans h
  have hmounted (t : Nat) : (rackOf (placesOf s)).loc t = .onArm x ↔ mountedTip s x = some t := by
    rw [hloc]
    refine ⟨fun ⟨ht, h⟩ => ?_, mountedTip_eq_some⟩
    cases hm : mountedTip s x with
    | none => exact absurd h (mountedTip_eq_none hm ht)
    | some u =>
      obtain ⟨hu, hlocu⟩ := mountedTip_eq_some hm
      rw [hsingle u t hu ht hlocu h]
  constructor
  · rintro rfl t; exact hmounted t
  · intro h
    refine Option.ext fun t => ?_
    rw [← hmounted t, h t]

end

/-! ### The sessions' expectations -/

/-- R80, R82: what a session still to drop and to pick expects of the rack. -/
structure Ready (r : Rack) (x : Arm) (c : Session) : Prop where
  mounted : c.state = .waitZone ∨ c.state = .drop → ∀ t, r.loc t = .onArm x ↔ c.dropTip = some t
  vacant  : c.state = .waitZone ∨ c.state = .drop → ∀ q, c.dropPort = some q → r.port q = .empty
  bare    : c.state = .pick → ∀ t, r.loc t ≠ .onArm x
  stands  : c.state = .waitZone ∨ c.state = .drop ∨ c.state = .pick → ∀ t q, c.pickTip = some t → c.pickPort = some q →
    r.loc t = .port q

/-- R81: two sessions share no drop port and no pick tip. -/
def Apart (a b : Session) : Prop :=
  a.state ≠ .idle → b.state ≠ .idle →
    (∀ q, a.dropPort = some q → b.dropPort ≠ some q) ∧ (∀ t, a.pickTip = some t → b.pickTip ≠ some t)

/-- The tips, the ports and the sessions agree; the expectations of the arms of a set, whose sessions are about to change,
left out. -/
structure Seated (out : Arm → Prop) (r : Rack) : Prop where
  holds    : ∀ t q, r.port q = .holds t ↔ r.loc t = .port q
  single   : ∀ x t u, r.loc t = .onArm x → r.loc u = .onArm x → t = u
  known    : ∀ t, r.present t = false → r.loc t = .absent
  distinct : ∀ t u, r.present t = true → r.present u = true → r.code t ≠ 0 → r.code t = r.code u → t = u
  ready    : ∀ x, ¬ out x → Ready r x (r.session x)
  apart    : ∀ x, Apart (r.session x) (r.session (otherArm x))

theorem Apart.symm {a b : Session} (h : Apart a b) : Apart b a := fun hb ha =>
  ⟨fun q hq hqa => (h ha hb).1 q hqa hq, fun t ht hta => (h ha hb).2 t hta ht⟩

section
variable {s : State}

/-- R73: the ports and the locations agree. -/
theorem holds_iff (hs : Whole s) : ((∀ p < 12, portAgrees s p = true) ∧ (∀ t < 33, isTip t → tipAgrees s t = true))
    ↔ ∀ t q, portOf s q = .holds t ↔ (rackOf (placesOf s)).loc t = .port q := by
  constructor
  · rintro ⟨hports, htips⟩ t q
    constructor
    · intro hq
      have hp : isPort q := isPort_of_port hs (by simp [hq])
      have hagrees := hports q hp
      simp only [portAgrees, hq, Bool.and_eq_true, decide_eq_true_eq] at hagrees
      exact (rackOf_loc hagrees.1).trans hagrees.2
    · intro hloc
      have ht : isTip t := isTip_of_loc (s := s) (by simp [hloc])
      have hagrees := htips t (by omega) ht
      rw [rackOf_loc ht] at hloc
      simp only [tipAgrees, hloc, Bool.and_eq_true, decide_eq_true_eq] at hagrees
      exact hagrees.2
  · intro h
    refine ⟨fun q _ => ?_, fun t _ ht => ?_⟩
    · unfold portAgrees
      split
      · next t hq =>
        have hloc := (h t q).1 hq
        have ht : isTip t := isTip_of_loc (s := s) (by simp [hloc])
        rw [rackOf_loc ht] at hloc
        simp [ht, hloc]
      · rfl
    · unfold tipAgrees
      split
      · next q hloc =>
        have hq := (h t q).2 ((rackOf_loc ht).trans hloc)
        have hp : isPort q := isPort_of_port hs (by simp [hq])
        simp [hp, hq]
      · rfl

theorem ready_iff {x : Arm} (hs : Whole s) (hsingle : ∀ t u, isTip t → isTip u → (tipOf s t).location = .onArm x →
      (tipOf s u).location = .onArm x → t = u)
    (hholds : ∀ t q, portOf s q = .holds t ↔ (rackOf (placesOf s)).loc t = .port q) :
    SessionReady s x ↔ Ready (rackOf (placesOf s)) x ((rackOf (placesOf s)).session x) := by
  have hstep : inStep (sessionOf s x) = true ↔ (sessionOf s x).state = .drop ∨ (sessionOf s x).state = .pick := by
    simp [inStep]
  constructor
  · rintro ⟨hwait, hpick, hstands⟩
    refine ⟨fun h => (mountedTip_iff hsingle _).1 (hwait h).1, fun h q hq => ((hwait h).2 q hq).2, fun h t => ?_,
      fun h t q ht hq => ?_⟩
    · have := (mountedTip_iff hsingle none).1 (hpick h) t
      simp only [reduceCtorEq, iff_false] at this
      exact this
    · obtain ⟨htip, -, hloc⟩ := hstands (h.imp id hstep.2) t ht q hq
      exact (rackOf_loc htip).trans hloc
  · rintro ⟨hmounted, hvacant, hbare, hstands⟩
    refine ⟨fun h => ⟨(mountedTip_iff hsingle _).2 (hmounted h), fun q hq => ?_⟩, fun h => ?_, fun h t ht q hq => ?_⟩
    · have hempty : portOf s q = .empty := hvacant h q hq
      exact ⟨isPort_of_port hs (by simp [hempty]), hempty⟩
    · exact (mountedTip_iff hsingle none).2 (fun t => by simpa using hbare h t)
    · rw [hstep] at h
      have hloc := hstands h t q ht hq
      have htip : isTip t := isTip_of_loc (s := s) (by simp [hloc])
      have hport := (hholds t q).2 hloc
      exact ⟨htip, isPort_of_port hs (by simp [hport]), rackOf_loc htip ▸ hloc⟩

theorem seated_iff (hs : Whole s) : TipsInPlace s ↔ Seated nobody (rackOf (placesOf s)) := by
  constructor
  · rintro ⟨hports, htips, hsingle, hknown, hdistinct, hready, hapart⟩
    have hholds := (holds_iff hs).1 ⟨hports, htips⟩
    have hsingle (x : Arm) (t u : Nat) (ht : isTip t) (hu : isTip u) := hsingle x t (by omega) u (by omega) ht hu
    refine ⟨hholds, fun x t u ht hu => ?_, fun t ht => ?_, fun t u ht hu hcode heq => ?_,
      fun x _ => (ready_iff hs (hsingle x) hholds).1 (hready x), forall_arm.2 ⟨hapart, Apart.symm hapart⟩⟩
    · have hit : isTip t := isTip_of_loc (s := s) (by simp [ht])
      have hiu : isTip u := isTip_of_loc (s := s) (by simp [hu])
      exact hsingle x t u hit hiu (rackOf_loc hit ▸ ht) (rackOf_loc hiu ▸ hu)
    · by_cases hit : isTip t
      · rw [rackOf_present hit] at ht
        exact (rackOf_loc hit).trans (hknown t (by omega) hit ht)
      · exact if_neg hit
    · have hit := isTip_of_present ht
      have hiu := isTip_of_present hu
      rw [rackOf_present hit] at ht
      rw [rackOf_present hiu] at hu
      rw [rackOf_code hit] at hcode heq
      rw [rackOf_code hiu] at heq
      exact hdistinct t (by omega) u (by omega) hit hiu ht hu hcode heq
  · rintro ⟨hholds, hsingle, hknown, hdistinct, hready, hapart⟩
    obtain ⟨hports, htips⟩ := (holds_iff hs).2 hholds
    have hsingle (x : Arm) (t u : Nat) (ht : isTip t) (hu : isTip u) (hlt : (tipOf s t).location = .onArm x)
        (hlu : (tipOf s u).location = .onArm x) : t = u :=
      hsingle x t u ((rackOf_loc ht).trans hlt) ((rackOf_loc hu).trans hlu)
    refine ⟨hports, htips, fun x t _ u _ => hsingle x t u, fun t _ ht hpresent => ?_,
      fun t _ u _ ht hu hpt hpu hcode heq => ?_, fun x => (ready_iff hs (hsingle x) hholds).2 (hready x (fun h => h)), hapart .a⟩
    · exact (rackOf_loc ht).symm.trans (hknown t ((rackOf_present ht).trans hpresent))
    · exact hdistinct t u ((rackOf_present ht).trans hpt) ((rackOf_present hu).trans hpu) (by rwa [rackOf_code ht])
        (by rw [rackOf_code ht, rackOf_code hu]; exact heq)

end

end Sys2Proof.Proofs
end

section
/-! The tips (O10): what a session's change, and a tip's or a port's, keeps of their agreement. -/
namespace Sys2Proof.Proofs

open Sys2Proof.Machine Sys2Proof.Laws

/-- A session that still expects something of the rack. -/
def Awaits (c : Session) : Prop := c.state = .waitZone ∨ c.state = .drop ∨ c.state = .pick

/-- A location that is no port. -/
def OffPort (l : TipLocation) : Prop := ∀ q, l ≠ .port q

/-- A port state that holds no tip. -/
def Vacant (v : PortState) : Prop := ∀ t, v ≠ .holds t

/-- R73: a port holds the tips that stand there. -/
def Agree (loc : Nat → TipLocation) (port : Nat → PortState) : Prop := ∀ t q, port q = .holds t ↔ loc t = .port q

/-- R73: an arm carries one tip. -/
def OnePerArm (loc : Nat → TipLocation) : Prop := ∀ x t u, loc t = .onArm x → loc u = .onArm x → t = u

section
variable {loc : Nat → TipLocation} {port : Nat → PortState} {t q : Nat} {l : TipLocation} {v : PortState} {x : Arm}

theorem Agree.leavePort (h : Agree loc port) (hloc : loc t = .port q) (hl : OffPort l) (hv : Vacant v) :
    Agree (Function.update loc t l) (Function.update port q v) := by
  intro u p
  have hup := h u p
  have htp := h t p
  have huq := h u q
  have htq := h t q
  have hl := hl p
  have hv := hv u
  grind [Function.update_apply]

theorem Agree.toPort (h : Agree loc port) (hloc : OffPort (loc t)) (hv : Vacant (port q)) :
    Agree (Function.update loc t (.port q)) (Function.update port q (.holds t)) := by
  intro u p
  have hup := h u p
  have htp := h t p
  have huq := h u q
  have hloc := hloc p
  have hv := hv u
  grind [Function.update_apply]

/-- A tip that stands in no port takes another location that is none. -/
theorem Agree.offPort (h : Agree loc port) (hloc : OffPort (loc t)) (hl : OffPort l) : Agree (Function.update loc t l) port := by
  intro u p
  have hup := h u p
  have hloc := hloc p
  have hl := hl p
  grind [Function.update_apply]

/-- A port that holds no tip takes another state that holds none. -/
theorem Agree.vacant (h : Agree loc port) (hq : Vacant (port q)) (hv : Vacant v) : Agree loc (Function.update port q v) := by
  intro u p
  have hup := h u p
  have hq := hq u
  have hv := hv u
  grind [Function.update_apply]

theorem OnePerArm.update (h : OnePerArm loc) (hbare : ∀ x, l = .onArm x → ∀ u, loc u ≠ .onArm x) :
    OnePerArm (Function.update loc t l) := by
  intro x u w hu hw
  have huw := h x u w
  have hbare := hbare x
  grind [Function.update_apply]

/-- A present tip may stand anywhere. -/
theorem known_update {present : Nat → Bool} (h : ∀ u, present u = false → loc u = .absent) (ht : present t = true) (u : Nat)
    (hu : present u = false) : Function.update loc t l u = .absent := by
  have hut : u ≠ t := fun heq => by simp [heq, ht] at hu
  rw [Function.update_of_ne hut]
  exact h u hu

end

section
variable {out : Arm → Prop} {r : Rack} {x y : Arm} {t q : Nat} {l : TipLocation} {v : PortState} {c d : Session}

theorem Apart.idle (c : Session) : Apart Session.idle c := fun h => absurd rfl h

/-- A session that names no other port and no other tip stays apart. -/
theorem Apart.congr {e : Session} (h : Apart c e) (hidle : c.state ≠ .idle) (hdrop : d.dropPort = c.dropPort)
    (hpick : d.pickTip = c.pickTip) : Apart d e := by
  intro _ he
  obtain ⟨h1, h2⟩ := h hidle he
  exact ⟨fun q hq => h1 q (hdrop ▸ hq), fun t ht => h2 t (hpick ▸ ht)⟩

/-- A session that waits for nothing expects nothing. -/
theorem Ready.of_not_awaits (h : ¬ Awaits c) : Ready r x c := by
  simp only [Awaits, not_or] at h
  obtain ⟨hwait, hdrop, hpick⟩ := h
  exact ⟨fun h => (h.elim hwait hdrop).elim, fun h => (h.elim hwait hdrop).elim, fun h => (hpick h).elim,
    fun h => (h.elim hwait (fun h => h.elim hdrop hpick)).elim⟩

/-- What a session expects, it expects of its own arm, of its ports and of its pick tip alone. -/
theorem Ready.congr {r' : Rack} (h : Ready r x c) (harm : ∀ t, Awaits c → (r'.loc t = .onArm x ↔ r.loc t = .onArm x))
    (hdrop : ∀ q, c.state = .waitZone ∨ c.state = .drop → c.dropPort = some q → r.port q = .empty → r'.port q = .empty)
    (hpick : ∀ t q, Awaits c → c.pickTip = some t → c.pickPort = some q → r.loc t = .port q → r'.loc t = .port q) :
    Ready r' x c := by
  obtain ⟨hmounted, hvacant, hbare, hstands⟩ := h
  refine ⟨fun hc t => ?_, fun hc q hq => hdrop q hc hq (hvacant hc q hq), fun hc t ht => ?_, fun hc t q ht hq => ?_⟩
  · rw [harm t (hc.imp_right .inl), hmounted hc t]
  · exact hbare hc t ((harm t (.inr (.inr hc))).1 ht)
  · exact hpick t q hc ht hq (hstands hc t q ht hq)

namespace Seated

theorem weaken {out' : Arm → Prop} (h : Seated out r) (hout : ∀ x, out x → out' x) : Seated out' r :=
  { h with ready := fun x hx => h.ready x (fun hin => hx (hout x hin)) }

theorem present_of_loc (h : Seated out r) (ht : r.loc t ≠ .absent) : r.present t = true := by
  by_contra hno
  exact ht (h.known t (by simpa using hno))

theorem withSession (h : Seated (fun y => out y ∨ y = x) r) (hready : ¬ out x → Ready r x c)
    (hapart : Apart c (r.session (otherArm x))) : Seated out (r.withSession x c) := by
  have hself : (r.withSession x c).session x = c := by simp [Rack.withSession]
  have hother {y : Arm} (hy : y ≠ x) : (r.withSession x c).session y = r.session y := by
    simp [Rack.withSession, hy]
  have hne : otherArm x ≠ x := by cases x <;> decide
  refine ⟨h.holds, h.single, h.known, h.distinct, fun y hy => ?_, fun y => ?_⟩
  · by_cases hyx : y = x
    · subst hyx
      rw [hself]
      exact ⟨(hready hy).mounted, (hready hy).vacant, (hready hy).bare, (hready hy).stands⟩
    · rw [hother hyx]
      have hrdy := h.ready y (not_or.2 ⟨hy, hyx⟩)
      exact ⟨hrdy.mounted, hrdy.vacant, hrdy.bare, hrdy.stands⟩
  · by_cases hyx : y = x
    · subst hyx
      rw [hself, hother hne]
      exact hapart
    · have hxy : otherArm y = x := by cases x <;> cases y <;> simp_all [otherArm]
      have hyx' : otherArm x = y := by cases x <;> cases y <;> simp_all [otherArm]
      rw [hother hyx, hxy, hself, ← hyx']
      exact hapart.symm

/-- A tip leaves its port, for nowhere known or for an arm that carries none. -/
theorem leavePort (h : Seated out r) (hloc : r.loc t = .port q) (hl : OffPort l) (hv : Vacant v)
    (hbare : ∀ x, l = .onArm x → ∀ u, r.loc u ≠ .onArm x)
    (hready : ∀ x, ¬ out x → Awaits (r.session x) →
      ¬ ((r.session x).pickTip = some t ∧ (r.session x).pickPort = some q) ∧ l ≠ .onArm x) :
    Seated out ((r.move t l).setPort q v) := by
  refine ⟨Agree.leavePort h.holds hloc hl hv, OnePerArm.update h.single hbare,
    known_update h.known (h.present_of_loc (by simp [hloc])), h.distinct, fun x hx => ?_, h.apart⟩
  refine (h.ready x hx).congr (fun u hc => ?_) (fun p _ _ hp => ?_) (fun u p hc hu hup hp => ?_)
  · obtain ⟨-, hlx⟩ := hready x hx hc
    by_cases hut : u = t
    · subst hut; simp [Rack.move, Rack.setPort, hloc, hlx]
    · simp [Rack.move, Rack.setPort, hut]
  · have hpq : p ≠ q := by
      rintro rfl
      rw [(h.holds t p).2 hloc] at hp
      cases hp
    simp [Rack.move, Rack.setPort, hpq, hp]
  · obtain ⟨hpick, -⟩ := hready x hx hc
    have hut : u ≠ t := by
      rintro rfl
      rw [hloc] at hp
      cases hp
      exact hpick ⟨hu, hup⟩
    simp [Rack.move, Rack.setPort, hut, hp]

/-- A tip leaves its arm for nowhere known. -/
theorem leaveArm (h : Seated out r) (hloc : r.loc t = .onArm x) (hl : l = .absent ∨ l = .unknown)
    (hready : ¬ out x → ¬ Awaits (r.session x)) : Seated out (r.move t l) := by
  have hoff : OffPort (r.loc t) := fun q => by simp [hloc]
  have hl' : OffPort l := fun q => by rcases hl with rfl | rfl <;> simp
  have harm (y : Arm) : l ≠ .onArm y := by rcases hl with rfl | rfl <;> simp
  refine ⟨Agree.offPort h.holds hoff hl', OnePerArm.update h.single (fun y hy => absurd hy (harm y)),
    known_update h.known (h.present_of_loc (by simp [hloc])), h.distinct, fun y hy => ?_, h.apart⟩
  by_cases hyx : y = x
  · subst hyx
    exact Ready.of_not_awaits (hready hy)
  · have hxy : x ≠ y := Ne.symm hyx
    refine (h.ready y hy).congr (fun u _ => ?_) (fun _ _ _ hp => hp) (fun u p _ _ _ hp => ?_)
    · by_cases hut : u = t
      · subst hut; simp [Rack.move, hloc, harm, hxy]
      · simp [Rack.move, hut]
    · have hut : u ≠ t := by rintro rfl; rw [hloc] at hp; cases hp
      simp [Rack.move, hut, hp]

/-- A tip that stands in no port is placed in one that holds none. -/
theorem toPort (h : Seated out r) (hloc : OffPort (r.loc t)) (hv : Vacant (r.port q)) (hpresent : r.present t = true)
    (hready : ∀ x, ¬ out x → Awaits (r.session x) → (r.session x).dropPort ≠ some q ∧ r.loc t ≠ .onArm x) :
    Seated out ((r.move t (.port q)).setPort q (.holds t)) := by
  refine ⟨Agree.toPort h.holds hloc hv, OnePerArm.update h.single (fun y hy => by cases hy), known_update h.known hpresent,
    h.distinct, fun x hx => ?_, h.apart⟩
  refine (h.ready x hx).congr (fun u hc => ?_) (fun p hc hdrop hp => ?_) (fun u p _ _ _ hp => ?_)
  · obtain ⟨-, harm⟩ := hready x hx hc
    by_cases hut : u = t
    · subst hut; simp [Rack.move, Rack.setPort, harm]
    · simp [Rack.move, Rack.setPort, hut]
  · obtain ⟨hne, -⟩ := hready x hx (hc.imp_right .inl)
    have hpq : p ≠ q := fun heq => hne (heq ▸ hdrop)
    simp [Rack.move, Rack.setPort, hpq, hp]
  · have hut : u ≠ t := by rintro rfl; exact hloc p hp
    simp [Rack.move, Rack.setPort, hut, hp]

/-- A tip that stands nowhere is mounted on an arm that carries none. -/
theorem toArm (h : Seated out r) (hloc : r.loc t = .absent ∨ r.loc t = .unknown) (hbare : ∀ u, r.loc u ≠ .onArm x)
    (hpresent : r.present t = true) (hready : ¬ out x → ¬ Awaits (r.session x)) : Seated out (r.move t (.onArm x)) := by
  have hoff : OffPort (r.loc t) := fun q => by rcases hloc with h | h <;> simp [h]
  have harm (y : Arm) : r.loc t ≠ .onArm y := by rcases hloc with h | h <;> simp [h]
  refine ⟨Agree.offPort h.holds hoff (fun q => by simp), OnePerArm.update h.single (fun y hy => ?_),
    known_update h.known hpresent, h.distinct, fun y hy => ?_, h.apart⟩
  · cases hy; exact hbare
  · by_cases hyx : y = x
    · subst hyx
      exact Ready.of_not_awaits (hready hy)
    · have hxy : x ≠ y := Ne.symm hyx
      refine (h.ready y hy).congr (fun u _ => ?_) (fun _ _ _ hp => hp) (fun u p _ _ _ hp => ?_)
      · by_cases hut : u = t
        · subst hut; simp [Rack.move, harm, hxy]
        · simp [Rack.move, hut]
      · have hut : u ≠ t := by rintro rfl; exact hoff p hp
        simp [Rack.move, hut, hp]

/-- A port without a tip takes another state without one. -/
theorem setPort (h : Seated out r) (hq : Vacant (r.port q)) (hv : Vacant v)
    (hready : ∀ x, ¬ out x → Awaits (r.session x) → (r.session x).dropPort ≠ some q) : Seated out (r.setPort q v) := by
  refine ⟨Agree.vacant h.holds hq hv, h.single, h.known, h.distinct, fun x hx => ?_, h.apart⟩
  refine (h.ready x hx).congr (fun _ _ => Iff.rfl) (fun p hc hdrop hp => ?_) (fun _ _ _ _ _ hp => hp)
  have hpq : p ≠ q := fun heq => hready x hx (hc.imp_right .inl) (heq ▸ hdrop)
  simp [Rack.setPort, hpq, hp]

end Seated
end

end Sys2Proof.Proofs
end

section
/-! The tips (O10): every move keeps the agreement of the tips, the ports and the sessions. -/
namespace Sys2Proof.Proofs

open Sys2Proof.Machine Sys2Proof.Laws

/-- The rack of a state. -/
abbrev rack (s : State) : Rack := rackOf (placesOf s)

section
variable {s u : State} {out : Arm → Prop} {x y : Arm} {z : Nat} {p : Places}

/-! ### Sessions -/

theorem not_awaits_idle {c : Session} (h : c.state = .idle) : ¬ Awaits c := by simp [Awaits, h]

namespace Seated

theorem of_eq (h : Seated out (rack s)) (heq : placesOf u = placesOf s) : Seated out (rack u) := by
  rw [rack, heq]
  exact h

theorem clearSession (h : Seated (fun y => out y ∨ y = x) (rack s)) : Seated out (rack (clearSession x s)) := by
  rw [rack, placesOf_clearSession]
  exact h.withSession (fun _ => Ready.of_not_awaits (not_awaits_idle rfl)) (Apart.idle _)

/-- R83: a waiting session that is granted zone 0 expects what it expected. -/
theorem entered {r : Rack} (h : Seated out r) (hw : (r.session y).state = .waitZone) :
    Seated out (r.withSession y (entered (r.session y))) := by
  refine (h.weaken (fun _ => .inl)).withSession (fun hy => ?_)
    ((h.apart y).congr (by rw [hw]; decide) rfl rfl)
  obtain ⟨hmounted, hvacant, -, hstands⟩ := h.ready y hy
  have hstate : (Proofs.entered (r.session y)).state = if (r.session y).dropTip.isSome then .drop else .pick := rfl
  refine ⟨fun _ => hmounted (.inl hw), fun _ => hvacant (.inl hw), fun hpick t ht => ?_, fun _ => hstands (.inl hw)⟩
  have hdrop := (hmounted (.inl hw) t).1 ht
  simp [hstate, hdrop] at hpick

theorem granted (h : Seated out (rackOf p)) : Seated out (rackOf (p.granted y z)) := by
  unfold Places.granted
  split
  · next hw => exact entered (r := rackOf p) h hw.2
  · exact h

theorem released (h : Seated out (rackOf p)) : Seated out (rackOf (p.released z)) := by
  unfold Places.released
  split
  · exact h
  · split
    · exact h.granted
    · exact h

theorem withdrawn (h : Seated out (rackOf p)) : Seated out (rackOf (p.withdrawn x z)) := by
  obtain heq | ⟨r, w, -, heq⟩ := p.withdrawn_cases x z <;> rw [heq]
  · exact h
  · exact h

theorem askRelease (h : Seated out (rack s)) : Seated out (rack (askRelease x z s)) := by
  obtain heq | ⟨w, -, heq | heq⟩ := placesOf_askRelease s x z <;> rw [rack, heq]
  · exact h
  · exact h.released
  · exact h

/-- R88, R91: the end of a session. -/
theorem endSession (h : Seated (fun y => out y ∨ y = x) (rack s)) :
    Seated out (rack (Machine.clearSession x (onTrigger x restored (Machine.askRelease x 0 s)))) :=
  (h.askRelease.of_eq (placesOf_onTrigger _ x _)).clearSession

theorem completeSession (h : Seated (fun y => out y ∨ y = x) (rack s)) : Seated out (rack (completeSession x s)) :=
  (h.of_eq (placesOf_post s _ _)).endSession

theorem cancelWaiting (h : Seated (fun y => out y ∨ y = x) (rack s)) : Seated out (rack (cancelWaiting x s)) := by
  rw [rack, placesOf_cancelWaiting]
  exact (withdrawn (p := placesOf s) h).withSession (fun _ => Ready.of_not_awaits (not_awaits_idle rfl)) (Apart.idle _)

/-- R89: a session in FAULT expects nothing. -/
theorem enterFault {c : FaultCause} {d : Detail} (h : Seated (fun y => out y ∨ y = x) (rack s))
    (hidle : (sessionOf s x).state ≠ .idle) : Seated out (rack (enterFault x c d s)) := by
  obtain ⟨heq, hfault⟩ | heq := placesOf_enterFault s x c d <;> rw [rack, heq]
  · refine { h with ready := fun y hy => ?_ }
    by_cases hyx : y = x
    · subst hyx
      have hstate : ((rack s).session y).state = .fault := hfault
      exact Ready.of_not_awaits (by simp [Awaits, hstate])
    · exact h.ready y (not_or.2 ⟨hy, hyx⟩)
  · exact h.withSession (fun _ => Ready.of_not_awaits (by simp [Awaits, faulted])) ((h.apart x).congr hidle rfl rfl)

theorem leaveRun (h : Seated out (rack s)) : Seated out (rack (leaveRun x s)) := by
  rw [rack, placesOf_leaveRun]
  split
  · exact (h.weaken (fun _ => .inl)).cancelWaiting
  · exact h

end Seated

/-! ### Steps completed -/

theorem apart_pick (h : Seated out (rack s)) (hx : Awaits ((rack s).session x)) {t : Nat}
    (ht : ((rack s).session x).pickTip = some t) (hyx : y ≠ x) (hy : Awaits ((rack s).session y)) :
    ((rack s).session y).pickTip ≠ some t := by
  have hother : otherArm x = y := by cases x <;> cases y <;> simp_all [otherArm]
  have hidle {c : Session} (hc : Awaits c) : c.state ≠ .idle := by rintro hc'; simp [Awaits, hc'] at hc
  exact (h.apart x (hidle hx) (hother ▸ hidle hy)).2 t ht ∘ (hother ▸ id)

theorem apart_drop (h : Seated out (rack s)) (hx : Awaits ((rack s).session x)) {q : Nat}
    (hq : ((rack s).session x).dropPort = some q) (hyx : y ≠ x) (hy : Awaits ((rack s).session y)) :
    ((rack s).session y).dropPort ≠ some q := by
  have hother : otherArm x = y := by cases x <;> cases y <;> simp_all [otherArm]
  have hidle {c : Session} (hc : Awaits c) : c.state ≠ .idle := by rintro hc'; simp [Awaits, hc'] at hc
  exact (h.apart x (hidle hx) (hother ▸ hidle hy)).1 q hq ∘ (hother ▸ id)

theorem vacant_empty : Vacant .empty := fun t => by simp

theorem vacant_unverified : Vacant .unverified := fun t => by simp

theorem rack_moveTip {t : Nat} (hw : Whole s) (ht : isTip t) (l : TipLocation) : rack (moveTip t l s) = (rack s).move t l :=
  rackOf_moveTip hw ht l

theorem rack_setPort {q : Nat} (hw : Whole s) (hq : isPort q) (v : PortState) : rack (setPort q v s) = (rack s).setPort q v :=
  rackOf_setPort hw hq v

theorem rack_setPort_moveTip {t q : Nat} (hw : Whole s) (ht : isTip t) (hq : isPort q) (l : TipLocation) (v : PortState) :
    rack (setPort q v (moveTip t l s)) = ((rack s).move t l).setPort q v :=
  (rackOf_setPort (hw.moveTip l) hq v).trans (congrArg (Rack.setPort · q v) (rackOf_moveTip hw ht l))

/-- R85: a session goes on to its pick. -/
theorem Seated.toPick {n : Nat} (h : Seated (fun y => out y ∨ y = x) (rack s)) (hidle : (sessionOf s x).state ≠ .idle)
    (hbare : ∀ t, (rack s).loc t ≠ .onArm x)
    (hstands : ∀ t q, (sessionOf s x).pickTip = some t → (sessionOf s x).pickPort = some q → (rack s).loc t = .port q) :
    Seated out (rack (onSession x (fun c => { c with state := .pick, timer := some n }) s)) := by
  rw [rack, placesOf_onSession s x (g := fun c => { c with state := .pick, timer := some 0 }) (fun _ => rfl)]
  refine h.withSession (fun _ => ⟨fun hc => by simp at hc, fun hc => by simp at hc, fun _ => hbare, fun _ => hstands⟩) ?_
  exact (h.apart x).congr hidle rfl rfl

theorem Seated.dropDone (hw : Whole s) (h : Seated nobody (rack s)) (hdrop : (sessionOf s x).state = .drop) :
    Seated nobody (rack (dropDone x s)) := by
  have hready := h.ready x (fun h => h)
  have hstate : ((rack s).session x).state = .drop := hdrop
  have hawaits : Awaits ((rack s).session x) := .inr (.inl hstate)
  unfold Machine.dropDone
  dsimp only
  split
  · next t p ht hp =>
    have hloc : (rack s).loc t = .onArm x := (hready.mounted (.inr hstate) t).2 ht
    have hempty : (rack s).port p = .empty := hready.vacant (.inr hstate) p hp
    have htip : isTip t := isTip_of_loc (s := s) (by simp [hloc])
    have hport : isPort p := isPort_of_port hw (by rw [← rackOf_port, hempty]; simp)
    let v := Machine.setPort p (.holds t) (moveTip t (.port p) s)
    have hv : rack v = ((rack s).move t (.port p)).setPort p (.holds t) := rack_setPort_moveTip hw htip hport _ _
    have hseated : Seated (fun y => nobody y ∨ y = x) (rack (emptyHistory x v)) := by
      refine of_eq ?_ (placesOf_emptyHistory v x)
      rw [hv]
      refine (h.weaken (fun _ => .inl)).toPort (fun q => by simp [hloc]) (by rw [hempty]; exact vacant_empty)
        (h.present_of_loc (by simp [hloc])) (fun y hy hyawaits => ?_)
      have hyx : y ≠ x := (not_or.1 hy).2
      exact ⟨apart_drop h hawaits hp hyx hyawaits, by simp [hloc, Ne.symm hyx]⟩
    split
    · let w := (emptyHistory x v).onPcc x (fun q => { q with changeDue := false })
      have hsame : placesOf w = placesOf v := (placesOf_onPcc_same _ x rfl).trans (placesOf_emptyHistory v x)
      have hrack : rack w = ((rack s).move t (.port p)).setPort p (.holds t) := by rw [rack, hsame]; exact hv
      have hloc' {u : Nat} (hu : u ≠ t) : (rack w).loc u = (rack s).loc u := by
        rw [hrack]; simp [Rack.move, Rack.setPort, hu]
      have hmoved : (rack w).loc t = .port p := by rw [hrack]; simp [Rack.move, Rack.setPort]
      have hsession : (rack w).session = (rack s).session := by rw [hrack]; rfl
      refine (hseated.of_eq (hsame.trans (placesOf_emptyHistory v x).symm)).toPick (s := w) ?_ (fun u hu => ?_)
        (fun u q hu hq => ?_)
      · exact (congrArg (fun r => (r x).state) hsession).trans hstate ▸ by decide
      · by_cases hut : u = t
        · rw [hut, hmoved] at hu; cases hu
        · rw [hloc' hut] at hu
          exact hut (h.single x u t hu hloc)
      · have hsession' := congrFun hsession x
        have hstands := hready.stands (.inr (.inl hstate)) u q ((congrArg Session.pickTip hsession').symm.trans hu)
          ((congrArg Session.pickPort hsession').symm.trans hq)
        have hut : u ≠ t := by rintro rfl; rw [hloc] at hstands; cases hstands
        exact (hloc' hut).trans hstands
    · exact hseated.completeSession
  · exact h

/-! ### Picks -/

/-- R86: the tip that a mismatch identifies is present, and is not the one expected. -/
theorem tipWithCode_spec {e m : Nat} {code : BitVec 16} (h : tipWithCode s e code = some m) :
    isTip m ∧ (tipOf s m).present = true ∧ m ≠ e ∧ (tipOf s m).code = code := by
  unfold tipWithCode at h
  split at h
  · cases h
  · have hmem := List.mem_of_find?_eq_some h
    simp only [List.mem_map, List.mem_range] at hmem
    obtain ⟨i, hi, rfl⟩ := hmem
    have hfound := List.find?_some h
    simp only [Bool.and_eq_true, decide_eq_true_eq] at hfound
    exact ⟨⟨by omega, by omega⟩, hfound.1.1, hfound.1.2, hfound.2⟩

theorem tipWithCode_none {t u : Nat} {code : BitVec 16} (h : tipWithCode s t code = none) (hcode : code ≠ 0) (hu : isTip u)
    (hpresent : (tipOf s u).present = true) (hut : u ≠ t) : (tipOf s u).code ≠ code := by
  unfold tipWithCode at h
  rw [if_neg hcode] at h
  have hmem : u ∈ (List.range 32).map (· + 1) := by
    rw [List.mem_map]
    exact ⟨u - 1, List.mem_range.2 (by omega), by omega⟩
  have := List.find?_eq_none.1 h u hmem
  simpa [hpresent, hut] using this

theorem pickOutcome_identified {e m : Nat} {code : BitVec 16} (h : pickOutcome s e code = .identified m) :
    tipWithCode s e code = some m := by
  unfold pickOutcome at h
  split at h
  · next h' => cases h; exact h'
  · split at h <;> cases h

/-- While one arm's session is in a step, the other's is in none (R83): both would hold zone 0. -/
theorem Ordered.not_both (h : Ordered nobody (placesOf s)) (hx : inStep (sessionOf s x) = true) (hyx : y ≠ x)
    (hy : Awaits ((rack s).session y)) : (sessionOf s y).state = .waitZone := by
  obtain hwait | hstep := hy
  · exact hwait
  · have hpx := h.place x (fun h => h)
    have hpy := h.place y (fun h => h)
    have hstate : ((placesOf s).session y).state = .drop ∨ ((placesOf s).session y).state = .pick := hstep
    have hxstate : (sessionOf s x).state = .drop ∨ (sessionOf s x).state = .pick := by simpa [inStep] using hx
    have hheld {w : Arm} (hs : ((placesOf s).session w).state = .drop ∨ ((placesOf s).session w).state = .pick)
        (hp : PlacedAt ((placesOf s).zone 0) w ((placesOf s).session w).state) : ∃ v, (placesOf s).zone 0 = .held w false v := by
      rcases hs with hs | hs <;> rw [hs] at hp <;> exact hp
    obtain ⟨v, hv⟩ := hheld hxstate hpx
    obtain ⟨v', hv'⟩ := hheld hstate hpy
    rw [hv] at hv'
    cases hv'
    exact absurd rfl hyx

/-- The expected tip leaves the pick port of a session in PICK (R86, R87). -/
theorem Seated.picked {e p : Nat} {l : TipLocation} (h : Seated nobody (rack s)) (hpick : (sessionOf s x).state = .pick)
    (he : (sessionOf s x).pickTip = some e) (hp : (sessionOf s x).pickPort = some p) (hl : l = .unknown ∨ l = .onArm x) :
    Seated (fun y => nobody y ∨ y = x) (((rack s).move e l).setPort p .empty) := by
  have hready := h.ready x (fun h => h)
  have hstate : ((rack s).session x).state = .pick := hpick
  have hawaits : Awaits ((rack s).session x) := .inr (.inr hstate)
  have hloc := hready.stands hawaits e p he hp
  have harm (y : Arm) (hy : l = .onArm y) : y = x := by rcases hl with rfl | rfl <;> cases hy; rfl
  refine (h.weaken (fun _ => .inl)).leavePort hloc (fun q => by rcases hl with rfl | rfl <;> simp) vacant_empty
    (fun y hy => harm y hy ▸ hready.bare hstate) (fun y hy hyawaits => ?_)
  have hyx : y ≠ x := (not_or.1 hy).2
  exact ⟨fun hpicks => apart_pick h hawaits he hyx hyawaits hpicks.1, fun hy => hyx (harm y hy)⟩

/-- The arms that a mismatch takes out of step: the one that picked, and the other where its waiting session names the tip
identified (R95). -/
def Mismatched (s : State) (x : Arm) (m : Nat) (y : Arm) : Prop := y = x ∨ y = otherArm x ∧ expectsTip s (otherArm x) m = true

/-- A session that a mismatch leaves in place names nothing of the tip identified (R95). -/
theorem not_named {m : Nat} (ho : Ordered nobody (placesOf s)) (h : Seated nobody (rack s))
    (hpick : (sessionOf s x).state = .pick) (hy : ¬ Mismatched s x m y) (hawaits : Awaits ((rack s).session y)) :
    ((rack s).session y).pickTip ≠ some m ∧ (rack s).loc m ≠ .onArm y := by
  obtain ⟨hyx, hexpects⟩ := not_or.1 hy
  have hother : y = otherArm x := by cases x <;> cases y <;> simp_all [otherArm]
  have hwait := ho.not_both (x := x) (by simp [inStep, hpick]) hyx hawaits
  have hno : expectsTip s y m = false := by
    rw [hother]
    simpa [hother] using hexpects
  simp only [expectsTip, hwait, decide_true, Bool.true_and, Bool.or_eq_false_iff, decide_eq_false_iff_not] at hno
  refine ⟨hno.2, fun hloc => hno.1 ?_⟩
  exact ((h.ready y (fun h => h)).mounted (.inl hwait) m).1 hloc

/-- R87: the tip identified is mounted, its former place left, after the expected tip has left the pick port. -/
theorem Seated.identified {e m p : Nat} {code : BitVec 16} (hw : Whole s) (ho : Ordered nobody (placesOf s))
    (h : Seated nobody (rack s)) (hpick : (sessionOf s x).state = .pick) (he : (sessionOf s x).pickTip = some e)
    (hp : (sessionOf s x).pickPort = some p) (hm : tipWithCode s e code = some m) :
    Seated (Mismatched s x m) (rack (unverifyFormer (tipOf s m).location p
      (Machine.setPort p .empty (moveTip e .unknown (moveTip m (.onArm x) s))))) := by
  have hready := h.ready x (fun h => h)
  have hstate : ((rack s).session x).state = .pick := hpick
  have hloc : (rack s).loc e = .port p := hready.stands (.inr (.inr hstate)) e p he hp
  have hholds : portOf s p = .holds e := (h.holds e p).2 hloc
  have hte : isTip e := isTip_of_loc (s := s) (by simp [hloc])
  have hport : isPort p := isPort_of_port hw (by simp [hholds])
  obtain ⟨htm, hpresent, hne, -⟩ := tipWithCode_spec hm
  have hrack : rack (Machine.setPort p .empty (moveTip e .unknown (moveTip m (.onArm x) s)))
      = (((rack s).move e .unknown).setPort p .empty).move m (.onArm x) := by
    rw [rack_setPort_moveTip (hw.moveTip _) hte hport, rack_moveTip hw htm]
    simp only [Rack.move, Rack.setPort, Rack.mk.injEq, and_true]
    exact Function.update_comm hne _ _ _
  have hpicked := (h.picked hpick he hp (l := .unknown) (.inl rfl)).weaken (out' := Mismatched s x m)
    (fun y hy => .inl (hy.resolve_left (fun h => h)))
  have hm1 : (((rack s).move e .unknown).setPort p .empty).loc m = (tipOf s m).location := by
    simp only [Rack.move, Rack.setPort, Function.update_of_ne hne]
    exact rackOf_loc htm
  have hlocm : (rack s).loc m = (tipOf s m).location := rackOf_loc htm
  have hpresent1 : (((rack s).move e .unknown).setPort p .empty).present m = true := (rackOf_present htm).trans hpresent
  have hbare1 (u : Nat) : (((rack s).move e .unknown).setPort p .empty).loc u ≠ .onArm x := by
    by_cases hue : u = e
    · simp [Rack.move, Rack.setPort, hue]
    · simpa [Rack.move, Rack.setPort, hue] using hready.bare hstate u
  have hnamed {y : Arm} (hy : ¬ Mismatched s x m y) (hawaits : Awaits ((rack s).session y)) :=
    not_named ho h hpick hy hawaits
  unfold unverifyFormer
  split
  · next q hq =>
    rw [hq] at hm1 hlocm
    have hqp : q ≠ p := by
      rintro rfl
      have := (h.holds m q).2 hlocm
      rw [rackOf_port, hholds] at this
      exact hne (by cases this; rfl)
    have hqport : isPort q := isPort_of_port hw (by rw [← rackOf_port, (h.holds m q).2 hlocm]; simp)
    rw [if_neg hqp, rack_setPort (((hw.moveTip _).moveTip _).setPort _) hqport, hrack]
    exact hpicked.leavePort hm1 (fun _ => by simp) vacant_unverified
      (fun y hy => by cases hy; exact hbare1)
      (fun y hy hawaits => ⟨fun hpicks => (hnamed hy hawaits).1 hpicks.1, fun heq => hy (.inl (by cases heq; rfl))⟩)
  · next hplace =>
    rw [hrack]
    have hx : ¬ Mismatched s x m x → ¬ Awaits ((((rack s).move e .unknown).setPort p .empty).session x) :=
      fun hx => absurd (.inl rfl) hx
    cases hl : (tipOf s m).location with
    | port q => exact absurd hl (hplace q)
    | absent => exact hpicked.toArm (.inl (hm1.trans hl)) hbare1 hpresent1 hx
    | unknown => exact hpicked.toArm (.inr (hm1.trans hl)) hbare1 hpresent1 hx
    | onArm y =>
      have hleft := hpicked.leaveArm (hm1.trans hl) (l := .absent) (.inl rfl)
        (fun hy hawaits => (hnamed hy hawaits).2 (hlocm.trans hl))
      have hmounted := hleft.toArm (x := x) (t := m) (.inl (by simp [Rack.move])) (fun u => by
        by_cases hum : u = m
        · simp [Rack.move, hum]
        · simpa [Rack.move, hum, Rack.setPort] using hbare1 u) hpresent1 hx
      refine (congrArg (Seated (Mismatched s x m)) ?_).mp hmounted
      simp only [Rack.move, Function.update_idem]

theorem Seated.pickDone {headLast : Bool} (hw : Whole s) (ho : Ordered nobody (placesOf s)) (h : Seated nobody (rack s))
    (hpick : (sessionOf s x).state = .pick) : Seated nobody (rack (pickDone x headLast s)) := by
  have hready := h.ready x (fun h => h)
  have hstate : ((rack s).session x).state = .pick := hpick
  unfold Machine.pickDone
  dsimp only
  split
  · next e p he hp =>
    have hloc : (rack s).loc e = .port p := hready.stands (.inr (.inr hstate)) e p he hp
    have hholds : portOf s p = .holds e := (h.holds e p).2 hloc
    have htip : isTip e := isTip_of_loc (s := s) (by simp [hloc])
    have hport : isPort p := isPort_of_port hw (by simp [hholds])
    split
    · refine Seated.completeSession (of_eq ?_ (placesOf_emptyHistory _ x))
      rw [rack_setPort_moveTip hw htip hport]
      exact h.picked hpick he hp (.inr rfl)
    · refine Seated.enterFault ?_ (by rw [show sessionOf (Machine.setPort p .empty (moveTip e .unknown s)) x
        = sessionOf s x from rfl, hpick]; decide)
      rw [rack_setPort_moveTip hw htip hport]
      exact h.picked hpick he hp (.inl rfl)
    · next m hm =>
      let u := unverifyFormer (tipOf s m).location p (Machine.setPort p .empty (moveTip e .unknown (moveTip m (.onArm x) s)))
      have hsession : (placesOf (emptyHistory x u)).session = (placesOf s).session :=
        (congrArg Places.session (placesOf_emptyHistory u x)).trans session_unverifyFormer.2
      have hexpected : expectsTip (emptyHistory x u) (otherArm x) m = expectsTip s (otherArm x) m := by
        have hpcc : (emptyHistory x u).pcc = u.pcc :=
          ((emptyHistory_touches (bs := [.cen, .tcu]) x (by simp) (by simp)).2 (.refl _ u)).pcc (by decide)
        have harm : u.pcc.arm = s.pcc.arm := by
          simp only [u, unverifyFormer]
          split
          · split <;> rfl
          · rfl
        have hsame : sessionOf (emptyHistory x u) (otherArm x) = sessionOf s (otherArm x) := by
          simp only [sessionOf, State.pccOf, hpcc, harm]
        unfold expectsTip
        rw [hsame]
      have hseated : Seated (Mismatched s x m) (rack (emptyHistory x u)) :=
        (h.identified hw ho hpick he hp (pickOutcome_identified hm)).of_eq (placesOf_emptyHistory _ x)
      refine Seated.enterFault ?_ ?_
      · obtain ⟨hexpects, heq⟩ | ⟨-, heq⟩ := placesOf_disturb (s := emptyHistory x u) (y := otherArm x) (m := m)
          (lost := decide ((tipOf s m).location = .onArm (otherArm x))) (headLast := headLast)
        · refine (hseated.weaken (fun y hy => .inr (hy.resolve_right ?_))).of_eq heq
          rw [← hexpected, hexpects]
          simp
        · exact Seated.of_eq (Seated.cancelWaiting (hseated.weaken
            (fun y hy => hy.elim (fun hyx => .inl (.inr hyx)) (fun hyx => .inr hyx.1)))) heq
      · have hstays := congrArg Session.state ((session_disturb (s := emptyHistory x u) (x := x) (m := m)
          (lost := decide ((tipOf s m).location = .onArm (otherArm x))) (headLast := headLast)).trans (congrFun hsession x))
        exact fun hidle => by
          have := hstays.symm.trans hidle
          rw [show ((placesOf s).session x).state = .pick from hstate] at this
          cases this
  · exact h

end

end Sys2Proof.Proofs
end

section
/-! The tips (O10): the rack's monitor, the resets, the tip and port requests and the begin of a session. -/
namespace Sys2Proof.Proofs

open Sys2Proof.Machine Sys2Proof.Laws

section
variable {s u : State} {out : Arm → Prop} {x y : Arm} {t q : Nat}

/-- R94: the comparison of a port that no session names. -/
theorem Seated.monitorPort {r : BitVec 12} (hw : Whole s) (h : Seated nobody (rack s)) (hexempt : exempt s q = false) :
    Seated nobody (rack (monitorPort r q s)) := by
  have hnames (y : Arm) (hy : Awaits ((rack s).session y)) :
      ((rack s).session y).dropPort ≠ some q ∧ ((rack s).session y).pickPort ≠ some q := by
    have hidle : (sessionOf s y).state ≠ .idle := fun hidle => not_awaits_idle (c := (rack s).session y) hidle hy
    simp only [exempt, Bool.or_eq_false_iff] at hexempt
    have hboth := (forall_arm (P := fun y => (decide ((sessionOf s y).state ≠ .idle)
      && (decide ((sessionOf s y).dropPort = some q) || decide ((sessionOf s y).pickPort = some q))) = false)).2 hexempt
    have hy := hboth y
    simp only [hidle, ne_eq, not_false_eq_true, decide_true, Bool.true_and, Bool.or_eq_false_iff, decide_eq_false_iff_not] at hy
    exact hy
  unfold Machine.monitorPort
  rw [if_neg (by simp [hexempt])]
  split
  · next t hq _ =>
    have hloc : (rack s).loc t = .port q := (h.holds t q).1 hq
    have htip : isTip t := isTip_of_loc (s := s) (by simp [hloc])
    have hport : isPort q := isPort_of_port hw (by simp [hq])
    refine of_eq ?_ (placesOf_post _ _ _)
    rw [rack_setPort_moveTip hw htip hport]
    exact h.leavePort hloc (fun _ => by simp) vacant_unverified (fun y hy => by cases hy)
      (fun y _ hy => ⟨fun hpicks => (hnames y hy).2 hpicks.2, by simp⟩)
  · next hq _ =>
    have hport : isPort q := isPort_of_port hw (by simp [hq])
    refine of_eq ?_ (placesOf_post _ _ _)
    rw [rack_setPort hw hport]
    exact h.setPort (fun t => by simp [rackOf_port, hq]) vacant_unverified (fun y _ hy => (hnames y hy).1)
  · exact h

/-! ### Resets -/

/-- R96: the tip and the port of a step interrupted are made unknown, before the session ends. -/
theorem Seated.interruptSession (hw : Whole s) (h : Seated out (rack s)) (hx : ¬ out x) :
    Seated (fun y => out y ∨ y = x) (rack (interruptSession x s)) ∧ Whole (interruptSession x s) := by
  have hready := h.ready x hx
  have hstays : Seated (fun y => out y ∨ y = x) (rack s) ∧ Whole s := ⟨h.weaken (fun _ => .inl), hw⟩
  unfold Machine.interruptSession
  dsimp only
  split
  · next hdrop =>
    have hstate : ((rack s).session x).state = .drop := hdrop
    split
    · next t p ht hp =>
      have hloc : (rack s).loc t = .onArm x := (hready.mounted (.inr hstate) t).2 ht
      have hempty : (rack s).port p = .empty := hready.vacant (.inr hstate) p hp
      have htip : isTip t := isTip_of_loc (s := s) (by simp [hloc])
      have hport : isPort p := isPort_of_port hw (by rw [← rackOf_port, hempty]; simp)
      refine ⟨?_, (hw.moveTip _).setPort _⟩
      rw [rack_setPort_moveTip hw htip hport]
      refine ((h.weaken (fun _ => .inl)).leaveArm hloc (.inr rfl) (fun hy => absurd (.inr rfl) hy)).setPort
        (by simp only [Rack.move, hempty]; exact vacant_empty) vacant_unverified (fun y hy hawaits => ?_)
      exact apart_drop h (.inr (.inl hstate)) hp (not_or.1 hy).2 hawaits
    · exact hstays
  · next hpick =>
    have hstate : ((rack s).session x).state = .pick := hpick
    split
    · next e p he hp =>
      have hawaits : Awaits ((rack s).session x) := .inr (.inr hstate)
      have hloc : (rack s).loc e = .port p := hready.stands hawaits e p he hp
      have hholds : portOf s p = .holds e := (h.holds e p).2 hloc
      have htip : isTip e := isTip_of_loc (s := s) (by simp [hloc])
      have hport : isPort p := isPort_of_port hw (by simp [hholds])
      refine ⟨?_, (hw.moveTip _).setPort _⟩
      rw [rack_setPort_moveTip hw htip hport]
      exact (h.weaken (fun _ => .inl)).leavePort hloc (fun _ => by simp) vacant_unverified (fun y hy => by cases hy)
        (fun y hy hya => ⟨fun hpicks => apart_pick h hawaits he (not_or.1 hy).2 hya hpicks.1, by simp⟩)
    · exact hstays
  · exact hstays

theorem Seated.warmReset (hw : Whole s) (h : Seated nobody (rack s)) : Seated nobody (rack (warmReset s)) := by
  obtain ⟨ha, hwa⟩ := h.interruptSession hw (x := .a) (fun h => h)
  obtain ⟨hb, -⟩ := ha.interruptSession hwa (x := .b) (by simp)
  rw [rack, placesOf_warmReset]
  exact ⟨hb.holds, hb.single, hb.known, hb.distinct, fun x _ => Ready.of_not_awaits (not_awaits_idle rfl), fun x => Apart.idle _⟩

theorem seated_reset : Seated nobody (rack State.reset) := by
  have htip (t : Nat) : tipOf State.reset t = Tip.reset := by
    simp only [tipOf, State.reset, Pcc.reset, List.getD_eq_getElem?_getD, List.getElem?_replicate]
    split <;> rfl
  have hloc (t : Nat) : (rack State.reset).loc t = .absent := by
    by_cases ht : isTip t
    · rw [rackOf_loc ht, htip]; rfl
    · exact if_neg ht
  have hpresent (t : Nat) : (rack State.reset).present t = false := by
    by_cases ht : isTip t
    · rw [rackOf_present ht, htip]; rfl
    · exact if_neg ht
  have hport (q : Nat) : (rack State.reset).port q = .disabled := by
    simp only [rackOf_port, portOf, State.reset, Pcc.reset, List.getD_eq_getElem?_getD, List.getElem?_replicate]
    split <;> rfl
  have hsession (x : Arm) : (rack State.reset).session x = Session.idle := by cases x <;> rfl
  refine ⟨fun t q => ?_, fun x t u ht => ?_, fun t _ => hloc t, fun t u ht => ?_, fun x _ => ?_, fun x => ?_⟩
  · simp [hloc, hport]
  · simp [hloc] at ht
  · simp [hpresent] at ht
  · rw [hsession]; exact Ready.of_not_awaits (not_awaits_idle rfl)
  · rw [hsession]; exact Apart.idle _

/-! ### Tip and port requests -/

theorem Seated.tipWritten {f : ParamWords} (hw : Whole s) (h : Seated out (rack s)) (ht : isTip t)
    (hcode : codeTaken s t (BitVec.ofNat 16 (bitField f.w5.toNat 0 16)) = false) :
    Seated out (rack (onTip t (tipWritten f) s)) := by
  have hrack := rackOf_onTip hw ht (Machine.tipWritten f)
  have hloc : Function.update (rack s).loc t (Machine.tipWritten f (tipOf s t)).location = (rack s).loc := by
    rw [show (Machine.tipWritten f (tipOf s t)).location = (rack s).loc t from (rackOf_loc ht).symm, Function.update_eq_self]
  rw [hloc] at hrack
  have hnone : tipWithCode s t (BitVec.ofNat 16 (bitField f.w5.toNat 0 16)) = none := by simpa [codeTaken] using hcode
  have hunique (u : Nat) (hut : u ≠ t) (hu : (rack s).present u = true)
      (hne : (Machine.tipWritten f (tipOf s t)).code ≠ 0) : (Machine.tipWritten f (tipOf s t)).code ≠ (rack s).code u := by
    have hiu := isTip_of_present hu
    rw [rackOf_code hiu]
    exact fun heq => tipWithCode_none hnone hne hiu (rackOf_present hiu ▸ hu) hut heq.symm
  rw [rack, hrack]
  refine ⟨h.holds, h.single, fun w hp => h.known w ?_, fun w v hpw hpv hcw heq => ?_, fun x hx => ?_, h.apart⟩
  · by_cases hwt : w = t
    · simp [hwt, Machine.tipWritten] at hp
    · simpa [hwt] using hp
  · simp only [Function.update_apply] at hpw hpv hcw heq
    by_cases hwt : w = t <;> by_cases hvt : v = t
    · exact hwt.trans hvt.symm
    · simp only [hwt, hvt, if_true, if_false] at hpv hcw heq
      exact absurd heq (hunique v hvt hpv hcw)
    · simp only [hwt, hvt, if_true, if_false] at hpw hcw heq
      exact absurd heq.symm (hunique w hwt hpw (heq ▸ hcw))
    · simp only [hwt, hvt, if_false] at hpw hpv hcw heq
      exact h.distinct w v hpw hpv hcw heq
  · exact ⟨(h.ready x hx).mounted, (h.ready x hx).vacant, (h.ready x hx).bare, (h.ready x hx).stands⟩

theorem not_placed (h : tipPlaced (tipOf s t).location = false) :
    (tipOf s t).location = .absent ∨ (tipOf s t).location = .unknown := by
  cases hl : (tipOf s t).location <;> simp_all [tipPlaced]

theorem Seated.tipRemoved (hw : Whole s) (h : Seated out (rack s)) (ht : isTip t)
    (hplaced : tipPlaced (tipOf s t).location = false) :
    Seated out (rack (onTip t (fun r => { r with present := false, location := .absent }) s)) := by
  have hloc : (rack s).loc t = .absent ∨ (rack s).loc t = .unknown := by rw [rackOf_loc ht]; exact not_placed hplaced
  have hoff : OffPort ((rack s).loc t) := fun q => by rcases hloc with h | h <;> simp [h]
  have harm (y : Arm) : (rack s).loc t ≠ .onArm y := by rcases hloc with h | h <;> simp [h]
  rw [rack, rackOf_onTip hw ht]
  have hcode : Function.update (rack s).code t (tipOf s t).code = (rack s).code := by
    rw [show (tipOf s t).code = (rack s).code t from (rackOf_code ht).symm, Function.update_eq_self]
  refine ⟨Agree.offPort h.holds hoff (fun q => by simp), OnePerArm.update h.single (fun y hy => by cases hy),
    fun w hp => ?_, fun w v hpw hpv => ?_, fun x hx => ?_, h.apart⟩
  · by_cases hwt : w = t
    · simp [hwt]
    · simp only [Function.update_of_ne hwt] at hp ⊢
      exact h.known w hp
  · have hwt : w ≠ t := by rintro rfl; simp at hpw
    have hvt : v ≠ t := by rintro rfl; simp at hpv
    simp only [Function.update_of_ne hwt, Function.update_of_ne hvt] at hpw hpv ⊢
    exact h.distinct w v hpw hpv
  · refine (h.ready x hx).congr (fun w _ => ?_) (fun _ _ _ hp => hp) (fun w p _ _ _ hp => ?_)
    · by_cases hwt : w = t
      · subst hwt; simp [harm]
      · simp [hwt]
    · have hwt : w ≠ t := by rintro rfl; exact hoff p hp
      simpa [hwt] using hp

/-- A port takes a state that holds no tip; a tip that stood there goes nowhere (R77). -/
theorem Seated.portVacated {v : PortState} (hw : Whole s) (h : Seated nobody (rack s)) (hq : isPort q)
    (hawaits : ∀ x, ¬ Awaits ((rack s).session x)) (hv : Vacant v) :
    Seated nobody (rack (Machine.setPort q v (evictTip q v s))) := by
  unfold evictTip
  split
  · next u hport =>
    have hloc : (rack s).loc u = .port q := (h.holds u q).1 hport
    have htip : isTip u := isTip_of_loc (s := s) (by simp [hloc])
    rw [if_neg (hv u), rack_setPort_moveTip hw htip hq]
    exact h.leavePort hloc (fun _ => by simp) hv (fun y hy => by cases hy) (fun y _ hy => absurd hy (hawaits y))
  · next hport =>
    rw [rack_setPort hw hq]
    exact h.setPort hport hv (fun y _ hy => absurd hy (hawaits y))

/-- A tip that stands in no other port is set in a port (R77). -/
theorem Seated.portFilled (hw : Whole s) (h : Seated nobody (rack s)) (hq : isPort q) (ht : isTip t)
    (hawaits : ∀ x, ¬ Awaits ((rack s).session x)) (hpresent : (tipOf s t).present = true)
    (hfree : (tipOf s t).location = .absent ∨ (tipOf s t).location = .unknown ∨ (tipOf s t).location = .port q) :
    Seated nobody (rack (Machine.setPort q (.holds t) (moveTip t (.port q) (evictTip q (.holds t) s)))) := by
  have hloc : (rack s).loc t = (tipOf s t).location := rackOf_loc ht
  have hpresent : (rack s).present t = true := (rackOf_present ht).trans hpresent
  have hoff (hne : portOf s q ≠ .holds t) : OffPort ((rack s).loc t) := by
    intro p hp
    rw [hloc] at hp
    obtain hl | hl | hl := hfree <;> rw [hl] at hp <;> cases hp
    exact hne ((h.holds t q).2 (hloc.trans hl))
  unfold evictTip
  split
  · next u hport =>
    have hlocu : (rack s).loc u = .port q := (h.holds u q).1 hport
    by_cases hut : u = t
    · subst hut
      rw [if_pos rfl, rack_setPort_moveTip hw ht hq]
      refine (congrArg (Seated nobody) ?_).mpr h
      simp only [Rack.move, Rack.setPort, ← hlocu, ← (show (rack s).port q = .holds u from hport), Function.update_eq_self]
    · have htip : isTip u := isTip_of_loc (s := s) (by simp [hlocu])
      rw [if_neg (fun heq => hut (by cases heq; rfl)), rack_setPort_moveTip (hw.moveTip _) ht hq, rack_moveTip hw htip]
      have hleft := h.leavePort hlocu (l := .absent) (fun _ => by simp) vacant_empty (fun y hy => by cases hy)
        (fun y _ hy => absurd hy (hawaits y))
      have hplaced := hleft.toPort (t := t) (q := q)
        (by simpa [Rack.move, Rack.setPort, Ne.symm hut] using hoff (by rw [hport]; simp [hut]))
        (by simp only [Rack.setPort, Function.update_self]; exact vacant_empty) hpresent (fun y _ hy => absurd hy (hawaits y))
      refine (congrArg (Seated nobody) ?_).mpr hplaced
      simp only [Rack.move, Rack.setPort, Function.update_idem]
  · next hport =>
    rw [rack_setPort_moveTip hw ht hq]
    exact h.toPort (hoff (hport t)) hport hpresent (fun y _ hy => absurd hy (hawaits y))

theorem not_awaits_of_idle (h : sessionIdle s x = true) : ¬ Awaits ((rack s).session x) := by
  have hstate : (sessionOf s x).state = .idle := by simpa [sessionIdle] using h
  exact not_awaits_idle hstate

theorem Seated.portSet {v : PortState} (hw : Whole s) (h : Seated nobody (rack s)) (hq : isPort q)
    (htip : portTipOk s (some v) = true) (hidle : ∀ x, sessionIdle s x = true) (hfree : portTipFree s q (some v) = true) :
    Seated nobody (rack (Machine.setPort q v (placeTip q v (evictTip q v s)))) := by
  have hawaits (x : Arm) : ¬ Awaits ((rack s).session x) := not_awaits_of_idle (hidle x)
  cases v with
  | holds t =>
    simp only [portTipOk, Bool.and_eq_true, tipIdOk_iff] at htip
    refine h.portFilled hw hq htip.1 hawaits htip.2 ?_
    cases hl : (tipOf s t).location <;> simp_all [portTipFree]
  | disabled | empty | unverified => exact h.portVacated hw hq hawaits (fun _ => by simp)

theorem Seated.armTip (hw : Whole s) (h : Seated nobody (rack s))
    (ht : t ≠ 0 → tipIdOk t = true ∧ (tipOf s t).present = true) (hidle : sessionIdle s x = true)
    (hfree : t ≠ 0 → tipPlaced (tipOf s t).location = false) : Seated nobody (rack (mount x t (dismount x s))) := by
  have hawaits : ¬ Awaits ((rack s).session x) := not_awaits_of_idle hidle
  have hdismounted : Seated nobody (rack (dismount x s)) ∧ Whole (dismount x s) ∧ (rack (dismount x s)).session = (rack s).session
      ∧ (∀ u, (rack (dismount x s)).loc u ≠ .onArm x)
      ∧ (∀ u, (rack s).loc u ≠ .onArm x → (rack (dismount x s)).loc u = (rack s).loc u)
      ∧ (rack (dismount x s)).present = (rack s).present := by
    unfold dismount
    split
    · next u hu =>
      obtain ⟨htip, hloc⟩ := mountedTip_eq_some hu
      have hloc : (rack s).loc u = .onArm x := (rackOf_loc htip).trans hloc
      rw [rack_moveTip hw htip]
      refine ⟨h.leaveArm hloc (.inl rfl) (fun _ => hawaits), hw.moveTip _, rfl, fun w => ?_, fun w hne => ?_, rfl⟩
      · by_cases hwu : w = u
        · simp [Rack.move, hwu]
        · simp only [Rack.move, Function.update_of_ne hwu]
          exact fun hw => hwu (h.single x w u hw hloc)
      · have hwu : w ≠ u := by rintro rfl; exact hne hloc
        simp [Rack.move, hwu]
    · next hnone =>
      refine ⟨h, hw, rfl, fun u hu => ?_, fun _ _ => rfl, rfl⟩
      have htip : isTip u := isTip_of_loc (s := s) (by simp [hu])
      exact mountedTip_eq_none hnone htip ((rackOf_loc htip).symm.trans hu)
  obtain ⟨hd, hwd, hsession, hbare, hkeeps, hpresent⟩ := hdismounted
  unfold mount
  split
  · exact hd
  · next h0 =>
    obtain ⟨htip, hpt⟩ := ht h0
    rw [tipIdOk_iff] at htip
    have hplace := not_placed (hfree h0)
    rw [← rackOf_loc (s := s) htip] at hplace
    have hsame : (rack (dismount x s)).loc t = (rack s).loc t :=
      hkeeps t (by rcases hplace with hl | hl <;> simp [hl])
    rw [rack_moveTip hwd htip]
    refine hd.toArm (hsame ▸ hplace) hbare ?_ (fun _ => hsession ▸ hawaits)
    rw [hpresent]
    exact (rackOf_present htip).trans hpt

/-! ### The begin of a session -/

theorem session_single (h : Seated nobody (rack s)) (x : Arm) (t u : Nat) (ht : isTip t) (hu : isTip u)
    (hlt : (tipOf s t).location = .onArm x) (hlu : (tipOf s u).location = .onArm x) : t = u :=
  h.single x t u ((rackOf_loc ht).trans hlt) ((rackOf_loc hu).trans hlu)

/-- R81, R82: what the checks of a CHANGE_BEGIN let through finds what it expects. -/
theorem ready_filled {drop pick : Option Nat} (h : Seated nobody (rack s)) (hdrop : dropFits s x drop = true)
    (hpick : pickFits s pick = true) (hid : ∀ t, pick = some t → isTip t) : Ready (rack s) x (filledSession s x drop pick) := by
  refine ⟨fun _ => (mountedTip_iff (session_single h x) _).1 rfl, fun _ q hq => ?_, fun hc => ?_, fun _ t q ht hq => ?_⟩
  · have hq : drop = some q := hq
    subst hq
    unfold dropFits at hdrop
    cases hm : mountedTip s x with
    | none => simp [hm] at hdrop
    | some t =>
      rw [rackOf_port]
      simpa [hm] using hdrop
  · cases hc
  · have ht : pick = some t := ht
    subst ht
    have hq : portHolding s t = some q := hq
    unfold portHolding at hq
    split at hq
    · next p hl =>
      split at hq
      · cases hq
        exact (rackOf_loc (hid t rfl)).trans hl
      · cases hq
    · cases hq

theorem Seated.beginSession {drop pick : Option Nat} (h : Seated nobody (rack s))
    (hchecks : firstRefusal (changeChecks s x drop pick) = none) : Seated nobody (rack (beginSession x drop pick s)) := by
  simp only [firstRefusal_eq_none, changeChecks, List.forall_mem_cons, Bool.not_eq_false', Bool.and_eq_true] at hchecks
  obtain ⟨-, ⟨-, hid⟩, -, hdrop, hpick, hclash, -⟩ := hchecks
  have hid (t : Nat) (ht : pick = some t) : isTip t := by
    subst ht
    exact tipIdOk_iff.1 hid
  have hapart : Apart (filledSession s x drop pick) ((rack s).session (otherArm x)) := by
    intro _ hy
    have hy : (sessionOf s (otherArm x)).state ≠ .idle := hy
    simp only [clashes, hy, ne_eq, not_false_eq_true, decide_true, Bool.true_and, Bool.or_eq_false_iff,
      Bool.and_eq_false_iff, decide_eq_false_iff_not] at hclash
    refine ⟨fun q hq hqy => ?_, fun t ht hty => ?_⟩
    · have hq : drop = some q := hq
      subst hq
      exact hclash.1.elim (by simp) (fun hne => hne hqy)
    · have ht : pick = some t := ht
      subst ht
      exact hclash.2.elim (by simp) (fun hne => hne hty)
  have hfilled : Seated nobody (rack (fillSession x drop pick s)) := by
    rw [rack, placesOf_fillSession]
    exact (h.weaken (fun _ => .inl)).withSession (fun _ => ready_filled h hdrop hpick hid) hapart
  have hclaimed : rack (applyClaim x 0 (fillSession x drop pick s)) = rack (fillSession x drop pick s) := by
    obtain ⟨-, -, heq⟩ | ⟨_, _, -, -, heq⟩ | ⟨_, -, -, heq⟩ | ⟨_, -, -, -, heq⟩ | ⟨-, heq⟩ :=
      claim_cases (fillSession x drop pick s) x 0 <;> rw [heq] <;> rfl
  rw [beginSession_eq]
  split
  · rw [rack, placesOf_enterStep]
    refine Seated.entered (r := rack (applyClaim x 0 (fillSession x drop pick s))) (by rw [hclaimed]; exact hfilled) ?_
    rw [hclaimed, rack, placesOf_fillSession]
    simp [rackOf, Places.withSession, filledSession]
  · rw [hclaimed]; exact hfilled

end

theorem PlaceMove.seated {s t : State} (hm : PlaceMove s t) (hw : Whole s) (ho : Ordered nobody (placesOf s))
    (h : Seated nobody (rackOf (placesOf s))) : Seated nobody (rackOf (placesOf t)) := by
  cases hm with
  | drop x hd => exact h.dropDone hw hd
  | pick x headLast hp => exact h.pickDone hw ho hp
  | release z hdue =>
    rw [placesOf_releaseZone]
    exact h.released
  | fault x c d hf =>
    exact (h.weaken (fun _ => .inl)).enterFault (by rintro hidle; simp [inStep, hidle] at hf)
  | monitor r p he => exact h.monitorPort hw he
  | powerOn a b => rw [placesOf_powerOn]; exact seated_reset
  | enterConfig =>
    rw [placesOf_enterConfig]
    exact h.leaveRun.leaveRun
  | warmReset => exact h.warmReset hw
  | tipWritten t f ht hcode => exact h.tipWritten hw (tipIdOk_iff.1 ht) hcode
  | tipRemoved t ht hplaced => exact h.tipRemoved hw (tipIdOk_iff.1 ht) hplaced
  | portSet p v hp ht hidle hfree => exact h.portSet hw hp ht hidle hfree
  | armTip x t ht hidle hfree => exact h.armTip hw ht hidle hfree
  | claim x z =>
    obtain ⟨-, -, heq⟩ | ⟨_, _, -, -, heq⟩ | ⟨_, -, -, heq⟩ | ⟨_, -, -, -, heq⟩ | ⟨-, heq⟩ := claim_cases s x z <;>
      rw [heq] <;> exact h
  | ask x z => exact h.askRelease
  | withdraw x z => rw [placesOf_withdrawWait]; exact h.withdrawn
  | begin x drop pick hchecks => exact h.beginSession hchecks
  | cancel x => exact (h.weaken (fun _ => .inl)).cancelWaiting
  | abort x =>
    exact Seated.endSession ((h.weaken (fun _ => .inl)).of_eq
      ((placesOf_post _ _ _).trans (placesOf_whenDo s (fun u => by simp) _)))

theorem Move.seated {s t : State} (hm : Move s t) (hw : Whole s) (ho : Ordered nobody (placesOf s))
    (h : Seated nobody (rackOf (placesOf s))) : Seated nobody (rackOf (placesOf t)) := by
  obtain heq | ⟨u, hu, heq⟩ := hm.displaces
  · exact h.of_eq heq
  · exact (hu.seated hw ho h).of_eq heq

/-- Settles O10: the agreement of the tips, the ports and the sessions is kept by every move that changes the places. -/
theorem stepKeepsTipsInPlace : Obligations.StepKeepsTipsInPlace := by
  unfold Obligations.StepKeepsTipsInPlace
  intro s t hnumbers hzones htips h
  have hsize {u : State} (hu : NumbersBounded u) : u.mgd.zones.length = 8 := hu.2.2.2.2.2.2.2.2.2.1
  have hwhole := Whole.of_numbersBounded hnumbers
  have hkept : NumbersBounded t ∧ Ordered nobody (placesOf t) ∧ Seated nobody (rack t) :=
    step_keeps (P := fun u => NumbersBounded u ∧ Ordered nobody (placesOf u) ∧ Seated nobody (rack u)) (fun _ _ => id)
      (fun hm ⟨hn, ho, hs⟩ => ⟨hm.numbersBounded hn, hm.ordered ho, hm.seated (.of_numbersBounded hn) ho hs⟩)
      ⟨hnumbers, (ordered_iff (hsize hnumbers)).1 hzones, (seated_iff hwhole).1 htips⟩ h
  exact (seated_iff (.of_numbersBounded hkept.1)).2 hkept.2.2

end Sys2Proof.Proofs
end

section
/-! The block right after power-on reset (O11, O12). -/
namespace Sys2Proof.Proofs

open Sys2Proof.Machine Sys2Proof.Laws

/-- What holds of the value an element is a copy of holds of every element. -/
theorem forall_mem_replicate {α : Type} {P : α → Prop} {n : Nat} {a : α} (h : P a) : ∀ b ∈ List.replicate n a, P b := by
  intro b hb
  rw [List.eq_of_mem_replicate hb]
  exact h

theorem numbersBounded_reset : NumbersBounded State.reset := by
  refine ⟨by decide, by decide, by decide, fun x => by cases x <;> decide, by decide, by decide, by decide, ?_, ?_, ?_, ?_, ?_⟩
  all_goals exact List.length_replicate ..

/-- Settles O11: each invariant of the reset values. -/
theorem resetMeetsInvariants : Obligations.ResetMeetsInvariants := by
  unfold Obligations.ResetMeetsInvariants
  have hsound (k : TableKind) : State.reset.tbsOf k = TableState.reset := by rcases k with _ | (_ | _) | _ | _ | _ <;> rfl
  have hwhole := Whole.of_numbersBounded numbersBounded_reset
  have hordered : Ordered nobody (placesOf State.reset) := Ordered.reset rfl (funext fun x => by cases x <;> rfl)
  refine ⟨numbersBounded_reset, ?records, fun x => ?suppressed, fun _ x => ?rests, fun x => ?fields, ?banks, fun k => ?sound,
    ?holds, (ordered_iff rfl).2 hordered, (seated_iff hwhole).2 seated_reset, ?temperatures⟩
  case records => exact ⟨fun x => by cases x <;> rfl, forall_mem_replicate (by decide)⟩
  case suppressed => cases x <;> decide
  case rests => cases x <;> exact ⟨.inl rfl, .inl rfl, rfl⟩
  case fields => cases x <;> decide
  case banks =>
    refine ⟨fun k => ?_, fun x => ?_, fun b hb => by cases hb⟩
    · rw [hsound]
      exact ⟨rfl, (fun b hb => by cases hb), fun _ => rfl⟩
    · cases x <;> exact fun f hf => by cases hf
  case sound =>
    rw [hsound]
    exact ⟨(fun b hb => by cases hb), fun h => by cases h⟩
  case holds => exact ⟨(fun h => by cases h), (fun h => by cases h), by decide⟩
  case temperatures =>
    refine ⟨forall_mem_replicate (by decide), fun x => ?_⟩
    cases x <;> decide

/-- Settles O12: the values, field by field. -/
theorem resetValues : Obligations.ResetValues := by
  unfold Obligations.ResetValues
  refine ⟨rfl, rfl, rfl, rfl, rfl, rfl, rfl, rfl, rfl, rfl, rfl, fun k => ?kind, fun x => ?cen, rfl, rfl, fun x => ?thu,
    fun x => ?tcu, rfl, rfl, rfl, rfl, rfl, fun x => ?pcc, rfl, fun x => ?mgd, rfl, by decide, rfl, rfl⟩
  case kind => rcases k with _ | (_ | _) | _ | _ | _ <;> rfl
  case cen => cases x <;> exact ⟨rfl, rfl, rfl, rfl, rfl⟩
  case thu => cases x <;> exact ⟨rfl, rfl, rfl, rfl⟩
  case tcu => cases x <;> exact ⟨rfl, rfl, rfl, rfl⟩
  case pcc => cases x <;> exact ⟨rfl, rfl, rfl, rfl⟩
  case mgd => cases x <;> rfl

end Sys2Proof.Proofs
end

section
/-! From a request to its owner's answer, and the requests whose owner answers by one table of cases: TIP_REMOVE, the trigger and
feature requests, the workpiece, the thermal advance, the event requests, and the requests turned away (O22, O25 to O28, O34, O35,
O39). -/
namespace Sys2Proof.Proofs

open Sys2Proof.Machine Sys2Proof.Laws

section
variable {s t : State} {x : Arm} {i : Instr} {c : RequestCode} {own : State → Served} {r : Reply}

/-- A request's owner answers, in CONFIG and RUN. -/
theorem exec_request (hi : exec i s = .next (serve c own s)) (h : InService s) (hc : refusedInConfig c = false)
    (hown : own s = ⟨t, r⟩) : exec i s = .next (withReply (requestByte c) r t) := by
  rw [hi, serve_of_owner h hc hown]

/-- A request's owner answers, in RUN. -/
theorem exec_inRun (hi : exec i s = .next (serve c own s)) (h : InRun s) (hown : own s = ⟨t, r⟩) :
    exec i s = .next (withReply (requestByte c) r t) := by
  rw [hi, serve_inRun h, hown]

theorem withArm_armByte (x : Arm) (f : Arm → State → Served) : withArm (armByte x) f s = f x s := withArm_code x f

theorem withKind_kindByte (k : TableKind) (f : TableKind → State → Served) : withKind (kindByte k) f s = f k s :=
  withKind_code k f

/-! ### Changes of one arm's state -/

theorem modify_congr {α : Type} {p : PerArm α} {f g : α → α} (h : f (p.get x) = g (p.get x)) : p.modify x f = p.modify x g := by
  cases x <;> simp_all [PerArm.modify, PerArm.get]

theorem modify_modify {α : Type} (p : PerArm α) (f g : α → α) : (p.modify x f).modify x g = p.modify x (g ∘ f) := by
  cases x <;> rfl

theorem modify_self {α : Type} {p : PerArm α} {f : α → α} (h : f (p.get x) = p.get x) : p.modify x f = p := by
  cases x <;> simp_all [PerArm.modify, PerArm.get]

theorem onTcu_congr {f g : TcuArm → TcuArm} (h : f (s.tcuOf x) = g (s.tcuOf x)) : s.onTcu x f = s.onTcu x g := by
  rw [State.onTcu, modify_congr h, State.onTcu]

theorem onThu_congr {f g : ThuArm → ThuArm} (h : f (s.thuOf x) = g (s.thuOf x)) : s.onThu x f = s.onThu x g := by
  rw [State.onThu, modify_congr h, State.onThu]

theorem onTcu_self {f : TcuArm → TcuArm} (h : f (s.tcuOf x) = s.tcuOf x) : s.onTcu x f = s := by
  rw [State.onTcu, modify_self h]

theorem onThu_onThu (f g : ThuArm → ThuArm) : (s.onThu x f).onThu x g = s.onThu x (g ∘ f) := by
  simp only [State.onThu, modify_modify]

end

section
variable {s : State} {x : Arm} {tip : Byte}

/-! ### TIP_REMOVE -/

/-- Settles O22: the checks of the owner by the location. -/
theorem tipRemoveTakesTheTipOut : Obligations.TipRemoveTakesTheTipOut := by
  unfold Obligations.TipRemoveTakesTheTipOut
  intro s tip h t
  have answer {u : State} {r : Reply} (hown : ownTipRemove tip s = ⟨u, r⟩) :
      exec (.tipRemove tip) s = .next (withReply 0x21 r u) := exec_request (c := .tipRemove) rfl h rfl hown
  refine ⟨fun ht => answer ?unknown, fun ht hplace => answer ?placed, fun ht hplace => answer ?taken⟩
  case unknown =>
    have htip : tipIdOk tip.toNat = false := by rw [← Bool.not_eq_true, tipIdOk_iff]; exact ht
    rw [ownTipRemove]
    exact afterChecks_refuse (if_pos (by simp [htip]))
  case placed =>
    have htip : tipIdOk tip.toNat = true := tipIdOk_iff.2 ht
    have hplaced : tipPlaced (tipOf s tip.toNat).location = true := by
      obtain ⟨p, hp⟩ | ⟨y, hy⟩ := hplace
      · rw [show tip.toNat = t from rfl, hp]; rfl
      · rw [show tip.toNat = t from rfl, hy]; rfl
    rw [ownTipRemove]
    exact afterChecks_refuse (by simp [firstRefusal, htip, hplaced])
  case taken =>
    have htip : tipIdOk tip.toNat = true := tipIdOk_iff.2 ht
    have hplaced : tipPlaced (tipOf s tip.toNat).location = false := by
      obtain hl | hl := hplace <;> rw [show tip.toNat = t from rfl, hl] <;> rfl
    rw [ownTipRemove]
    exact afterChecks_pass (by simp [htip, hplaced])

/-! ### Triggers -/

theorem onTrigger_triggerOf {f : Trigger → Trigger} {v : Trigger} (h : triggerOf s x = v) :
    onTrigger x f s = s.onTcu x (fun u => { u with trigger := f v }) :=
  onTcu_congr (by rw [show (s.tcuOf x).trigger = v from h])

/-- Settles O25: the checks of TRIGGER_ARM in order, and TRIGGER_DISARM by the trigger's state. -/
theorem triggerRequestsByState : Obligations.TriggerRequestsByState := by
  unfold Obligations.TriggerRequestsByState
  intro s x h
  have arm {u : State} {r : Reply} (hown : ownTriggerArm (armByte x) s = ⟨u, r⟩) (hrun : s.riu.station = .run) :
      exec (.triggerArm (armByte x)) s = .next (withReply 0x30 r u) := exec_inRun (c := .triggerArm) rfl ⟨h.1, hrun⟩ hown
  have disarm {u : State} {r : Reply} (hown : ownTriggerDisarm (armByte x) s = ⟨u, r⟩) :
      exec (.triggerDisarm (armByte x)) s = .next (withReply 0x31 r u) := exec_request (c := .triggerDisarm) rfl h rfl hown
  refine ⟨fun hrun hready => arm ?notReady hrun, fun hrun hmap htip hbusy => arm ?busy hrun,
    fun hrun hmap htip hidle hnot => arm ?armed hrun, fun hsup => disarm ?suppressed, fun l hl => disarm ?latched,
    fun hsup hl => disarm ?disarmed⟩
  case notReady =>
    rw [ownTriggerArm, withArm_armByte]
    refine afterChecks_refuse (if_pos ?_)
    rcases hready with hready | hready <;> simp [hready]
  case busy =>
    rw [ownTriggerArm, withArm_armByte]
    refine afterChecks_refuse ?_
    rcases hbusy with hbusy | hbusy <;> simp [firstRefusal, hmap, htip, hbusy, sessionIdle]
  case armed =>
    rw [ownTriggerArm, withArm_armByte]
    refine (afterChecks_pass ?_).trans (congrArg (served .done) (onTcu_congr ?_))
    · simp [Option.isSome_iff_ne_none, hmap, htip, hidle, hnot, sessionIdle]
    · cases htrigger : (s.tcuOf x).trigger <;> rfl
  case suppressed =>
    rw [ownTriggerDisarm, withArm_armByte]
    simp only [hsup]
    rfl
  case latched =>
    rw [ownTriggerDisarm, withArm_armByte]
    simp only [hl, onTrigger_triggerOf hl]
    rfl
  case disarmed =>
    rw [ownTriggerDisarm, withArm_armByte]
    cases htrigger : triggerOf s x with
    | disarmed =>
      have hsame : s.onTcu x (fun u => { u with trigger := .disarmed }) = s :=
        onTcu_self (by rw [show (Trigger.disarmed) = (s.tcuOf x).trigger from htrigger.symm])
      rw [hsame]
      rfl
    | armed | rearm => rfl
    | latched l => simp [armLatched, htrigger, isLatched] at hl
    | suppressed => exact absurd htrigger hsup

/-! ### Features and thermal advances -/

theorem advance_eq : advance x s = s.onThu x (fun t => { t with applied := advancedSet s x }) :=
  onThu_congr rfl

theorem reload_advance_eq :
    reloadCountdown x (advance x s)
      = s.onThu x (fun t => { t with applied := advancedSet s x, countdown := loadedCountdown s }) := by
  rw [advance_eq, reloadCountdown, onThu_onThu]
  rfl

/-- Settles O26: the checks of the two requests, and the owed advance that the close takes. -/
theorem featureRequests : Obligations.FeatureRequests := by
  unfold Obligations.FeatureRequests
  intro s x h opened closed
  have open_ {u : State} {r : Reply} (hown : ownFeatureOpen (armByte x) s = ⟨u, r⟩) (hrun : s.riu.station = .run) :
      exec (.featureOpen (armByte x)) s = .next (withReply 0x32 r u) := exec_inRun (c := .featureOpen) rfl ⟨h.1, hrun⟩ hown
  have close {u : State} {r : Reply} (hown : ownFeatureClose (armByte x) s = ⟨u, r⟩) :
      exec (.featureClose (armByte x)) s = .next (withReply 0x33 r u) := exec_request (c := .featureClose) rfl h rfl hown
  have hclose : ownFeatureClose (armByte x) s = if (s.tcuOf x).bracketOpen then
      if armLatched s x then refuse .busy s else served .done (takeDeferred x closed) else served .done s := by
    rw [ownFeatureClose, withArm_armByte]
  refine ⟨fun hrun hbusy => open_ ?busy hrun, fun hrun hbracket hidle => open_ ?opened hrun, fun hbracket => close ?noBracket,
    fun hbracket hlatched => close ?latched, fun hbracket hlatched howed => close ?closed,
    fun hbracket hlatched howed => close ?owed⟩
  case busy =>
    rw [ownFeatureOpen, withArm_armByte]
    refine afterChecks_refuse ?_
    cases hb : (s.tcuOf x).bracketOpen with
    | true => rfl
    | false => simpa [firstRefusal, hb, sessionIdle] using hbusy
  case opened =>
    rw [ownFeatureOpen, withArm_armByte]
    refine (afterChecks_pass ?_).trans ?_
    · simp [hbracket, sessionIdle, hidle]
    · simp only [onTcu_tcuOf]
      rfl
  case noBracket => rw [hclose, hbracket]; rfl
  case latched => rw [hclose, hbracket, hlatched]; rfl
  case closed =>
    have hnone : takeDeferred x closed = closed := if_neg (by simp [closed, State.thuOf, ← howed])
    rw [hclose, hbracket, hlatched, hnone]
    rfl
  case owed =>
    have htaken : takeDeferred x closed = closed.onThu x (fun t =>
        { applied := advancedSet s x, deferred := false,
          countdown := if s.riu.station = .run then loadedCountdown s else t.countdown }) := by
      have howed' : (closed.thuOf x).deferred = true := howed
      unfold takeDeferred
      rw [if_pos howed', advance_eq, onThu_onThu]
      rw [show closed.riu.station = s.riu.station from rfl]
      by_cases hrun : s.riu.station = .run <;> simp only [hrun, if_true, if_false, reloadCountdown, onThu_onThu] <;> rfl
    rw [hclose, hbracket, hlatched, htaken]
    rfl

/-- Settles O28: the request reloads in every case; the expiry advances, or defers under an open bracket. -/
theorem thermalAdvances : Obligations.ThermalAdvances := by
  unfold Obligations.ThermalAdvances
  intro s x advanced
  have ask {u : State} {r : Reply} (h : InRun s) (hown : ownThermalAdvance (armByte x) s = ⟨u, r⟩) :
      exec (.thermalAdvance (armByte x)) s = .next (withReply 0x38 r u) := exec_inRun (c := .thermalAdvance) rfl h hown
  have hexpiry : exec (.autoAdvanceExpiry x) s = .next (autoAdvance x s) := rfl
  refine ⟨fun h hbracket => ask h ?busy, fun h hbracket => ask h ?taken, fun hzero hbracket => ?expired,
    fun hzero hbracket => ?deferred, fun hnot => ?idle⟩
  case busy =>
    rw [ownThermalAdvance, withArm_armByte]
    exact afterChecks_refuse (if_pos hbracket)
  case taken =>
    rw [ownThermalAdvance, withArm_armByte]
    refine (afterChecks_pass (by simpa using hbracket)).trans ?_
    simp only [reload_advance_eq, onThu_thuOf]
    rfl
  case expired => rw [hexpiry, autoAdvance, if_pos (by simpa [advanceDue] using hzero), hbracket, reload_advance_eq]; rfl
  case deferred => rw [hexpiry, autoAdvance, if_pos (by simpa [advanceDue] using hzero), hbracket]; rfl
  case idle => rw [hexpiry, autoAdvance_quiet hnot]

end

end Sys2Proof.Proofs
end

section
/-! The workpiece, the event requests, the requests turned away, and the two expiries of countdowns (O27, O34, O35, O39). -/
namespace Sys2Proof.Proofs

open Sys2Proof.Machine Sys2Proof.Laws

section
variable {s : State} {x : Arm}

/-! ### The workpiece -/

theorem signedBits_bitField (w v lo : Nat) : signedBits w (bitField v lo w) = (BitVec.ofNat w (v / 2 ^ lo)).toInt := by
  have : BitVec.ofNat w ((v / 2 ^ lo) % 2 ^ w) = BitVec.ofNat w (v / 2 ^ lo) := BitVec.eq_of_toNat_eq (by simp)
  rw [signedBits, bitField, this]

theorem anyBracketOpen_iff : anyBracketOpen s = true ↔ ∃ x, (s.tcuOf x).bracketOpen = true := by
  rw [exists_arm, anyBracketOpen, Bool.or_eq_true]

/-- Settles O27: the checks of the two requests, and the coordinates in the bit string of the first four words. -/
theorem workpieceRequests : Obligations.WorkpieceRequests := by
  unfold Obligations.WorkpieceRequests
  intro s f h open_ bits origin
  have set {u : State} {r : Reply} (hown : ownWorkpieceSet f s = ⟨u, r⟩) :
      exec (.workpieceSet f) s = .next (withReply 0x34 r u) := exec_request (c := .workpieceSet) rfl h rfl hown
  have clear {u : State} {r : Reply} (hown : ownWorkpieceClear s = ⟨u, r⟩) :
      exec .workpieceClear s = .next (withReply 0x35 r u) := exec_request (c := .workpieceClear) rfl h rfl hown
  have hopen : anyBracketOpen s = true ↔ open_ := anyBracketOpen_iff
  have hclosed (hno : ¬ open_) : anyBracketOpen s = false := by rwa [← Bool.not_eq_true, hopen]
  refine ⟨fun hcoefficient => set ?badParam, fun hcoefficient ho => set ?busy, fun hcoefficient ho => set ?taken,
    fun ho => clear ?clearBusy, fun ho => clear ?cleared⟩
  case badParam => exact afterChecks_refuse (if_pos (decide_eq_true hcoefficient))
  case busy =>
    rw [ownWorkpieceSet]
    exact afterChecks_refuse (by simp [firstRefusal, not_lt.2 hcoefficient, hopen.2 ho])
  case taken =>
    have horigin : workpieceOf f = ⟨origin, f.w4.toNat, true⟩ := by
      simp only [workpieceOf, signedBits_bitField, wordString, Nat.mul_zero, Nat.add_zero, Nat.pow_zero, Nat.div_one]
      rfl
    rw [ownWorkpieceSet, afterChecks_pass (by simp [hcoefficient, hclosed ho]), horigin]
    rfl
  case clearBusy => exact afterChecks_refuse (if_pos (hopen.2 ho))
  case cleared => exact afterChecks_pass (by simpa using hclosed ho)

/-! ### Events -/

theorem modify_eq_set {α : Type} {l : List α} {n : Nat} {a : α} (f : α → α) (h : l[n]? = some a) :
    l.modify n f = l.set n (f a) := by
  refine List.ext_getElem? fun i => ?_
  by_cases hin : n = i
  · subst hin
    obtain ⟨hlt, rfl⟩ := List.getElem?_eq_some_iff.1 h
    simp [hlt]
  · simp [hin]

/-- Settles O34: the checks of the two requests, and the source's entry. -/
theorem eventRequests : Obligations.EventRequests := by
  unfold Obligations.EventRequests
  intro s source w h hnumbers n v
  have priority {u : State} {r : Reply} (hown : ownEventPriority source w s = ⟨u, r⟩) :
      exec (.eventPriority source w) s = .next (withReply 0x50 r u) := exec_request (c := .eventPriority) rfl h rfl hown
  have level {u : State} {r : Reply} (hown : ownReportLevel w s = ⟨u, r⟩) :
      exec (.reportLevel w) s = .next (withReply 0x51 r u) := exec_request (c := .reportLevel) rfl h rfl hown
  have hsources : s.evu.sources.length = 17 := hnumbers.2.2.2.2.2.1
  refine ⟨fun hrange => priority ?badParam, fun hn hv => ?set, fun hv => level ?badLevel, fun hv => level ?levelSet⟩
  case badParam =>
    rw [ownEventPriority]
    refine afterChecks_refuse ?_
    by_cases hn : 16 < n
    · exact if_pos (decide_eq_true hn)
    · have hv : 7 < v := hrange.resolve_left hn
      simp only [firstRefusal, show decide (16 < source.toNat) = false from decide_eq_false hn, Bool.false_eq_true, if_false]
      exact if_pos (decide_eq_true hv)
  case set =>
    obtain ⟨q, hq⟩ : ∃ q, s.evu.sources[n]? = some q := ⟨_, List.getElem?_eq_getElem (by omega)⟩
    refine ⟨q, hq, priority ?_⟩
    have hsource : sourceOf s n = q := by simp [sourceOf, hq]
    have hset : s.evu.sources.modify n (fun q => { q with priority := v }) = s.evu.sources.set n { q with priority := v } :=
      modify_eq_set _ hq
    rw [ownEventPriority, afterChecks_pass (by
      simp only [List.forall_mem_cons, decide_eq_false_iff_not, not_lt, List.not_mem_nil, false_imp_iff, implies_true, and_true]
      exact ⟨hn, hv⟩)]
    rw [← hset, ← hsource]
    rfl
  case badLevel =>
    rw [ownReportLevel]
    exact afterChecks_refuse (if_pos (decide_eq_true hv))
  case levelSet =>
    rw [ownReportLevel, afterChecks_pass (by
      simp only [List.forall_mem_cons, decide_eq_false_iff_not, not_lt, List.not_mem_nil, false_imp_iff, implies_true, and_true]
      exact hv)]
    rfl

/-! ### Requests turned away -/

theorem serve_out {c : RequestCode} {own : State → Served} (h : s.riu.inReset = true ∨ s.riu.station = .unaddressed) :
    serve c own s = s := if_pos h

theorem serve_inConfig {c : RequestCode} {own : State → Served} (hreset : s.riu.inReset = false)
    (hconfig : s.riu.station = .config) (hc : refusedInConfig c = true) :
    serve c own s = withReply (requestByte c) ⟨.wrongState, []⟩ s := by
  simp [serve, hreset, hconfig, hc]

theorem kindOf_eq_none {v : Byte} (h : v = 0 ∨ 6 < v.toNat) : kindOf v = none := by
  have hne (n : Byte) (h0 : n ≠ 0) (hn : n.toNat ≤ 6) : v ≠ n := by
    rintro rfl
    exact h.elim h0 (fun h => by omega)
  simp only [kindOf, hne 1 (by decide) (by decide), hne 2 (by decide) (by decide), hne 3 (by decide) (by decide),
    hne 4 (by decide) (by decide), hne 5 (by decide) (by decide), hne 6 (by decide) (by decide), if_false]

/-- Settles O35: the checks that stand before every owner's own. -/
theorem requestsTurnedAway : Obligations.RequestsTurnedAway := by
  unfold Obligations.RequestsTurnedAway
  refine ⟨fun c s hrequest h => ?out, fun s v z d e hreset hconfig => ?config, fun s v z d e h hv => ?runArm,
    fun s v z w h hv => ?arm, fun s v h hv => ?kind⟩
  case out =>
    cases c with
    | cycleFrameOutbound | cycleFrameReturn | pointDrain | touchResolve | lateResolution | triggerEdge | rearmExpiry
    | autoAdvanceExpiry | stepTimeout | dropComplete | pickComplete | deferredRelease | missedFrameDeadline | badCheckFrame
    | wrongLengthFrame | linkCheckFrame | otherFrame | powerOnReset | p2LinkChange | p1LinkChange | tableCheckComplete
    | powerOnResetEnd => cases hrequest
    | _ => exact congrArg Host.Outcome.next (serve_out h)
  case config =>
    exact ⟨congrArg _ (serve_inConfig (c := .triggerArm) hreset hconfig rfl),
      congrArg _ (serve_inConfig (c := .featureOpen) hreset hconfig rfl),
      congrArg _ (serve_inConfig (c := .thermalAdvance) hreset hconfig rfl),
      congrArg _ (serve_inConfig (c := .zoneClaim) hreset hconfig rfl),
      congrArg _ (serve_inConfig (c := .changeBegin) hreset hconfig rfl)⟩
  case runArm =>
    exact ⟨exec_inRun (c := .triggerArm) rfl h (withArm_other hv _), exec_inRun (c := .featureOpen) rfl h (withArm_other hv _),
      exec_inRun (c := .thermalAdvance) rfl h (withArm_other hv _), exec_inRun (c := .zoneClaim) rfl h (withArm_other hv _),
      exec_inRun (c := .changeBegin) rfl h (withArm_other hv _)⟩
  case arm =>
    exact ⟨exec_request (c := .armTipSet) rfl h rfl (withArm_other hv _),
      exec_request (c := .triggerDisarm) rfl h rfl (withArm_other hv _),
      exec_request (c := .featureClose) rfl h rfl (withArm_other hv _),
      exec_request (c := .zoneRelease) rfl h rfl (withArm_other hv _),
      exec_request (c := .holdRelease) rfl h rfl (withArm_other hv _),
      exec_request (c := .changeAbort) rfl h rfl (withArm_other hv _)⟩
  case kind => exact exec_request (c := .tableActivate) rfl h rfl (withKind_of_none (kindOf_eq_none hv))

/-! ### Countdowns -/

/-- R89: a session in a step enters FAULT. -/
theorem enterFault_of_step {c : FaultCause} {d : Detail} (h : inStep (sessionOf s x) = true) :
    enterFault x c d s = post (.change x) d (raise x .change (s.onPcc x (fun p => { p with
      session := { p.session with state := .fault, timer := none, fault := some c }, changeDue := false }))) := by
  unfold enterFault
  dsimp only
  split
  · next hstate _ => simp [inStep, hstate] at h
  · rfl

/-- Settles O39: an expiry acts at 0 alone. -/
theorem countdownsExpire : Obligations.CountdownsExpire := by
  unfold Obligations.CountdownsExpire
  intro s x
  have hrearm : exec (.rearmExpiry x) s = .next (rearmExpiry x s) := rfl
  have htimeout : exec (.stepTimeout x) s = .next (stepTimeout x s) := rfl
  refine ⟨fun hzero => ?armed, fun hnot => ?rearmIdle, fun hstep hzero => ?faulted, fun hnot => ?timeoutIdle⟩
  case armed => rw [hrearm, rearmExpiry, if_pos hzero]; rfl
  case rearmIdle => rw [hrearm, rearmExpiry_quiet hnot]
  case faulted =>
    have hin : inStep (sessionOf s x) = true := by simpa [inStep] using hstep
    rw [htimeout, stepTimeout, if_pos (by simp [hin, hzero]), enterFault_of_step hin]
  case timeoutIdle =>
    rw [htimeout, stepTimeout, if_neg]
    simp only [Bool.and_eq_true, decide_eq_true_eq, not_and_or, Bool.not_eq_true]
    exact hnot.symm

end

end Sys2Proof.Proofs
end

section
/-! The requests on tips, ports and mounted tips (O21, O23, O24). -/
namespace Sys2Proof.Proofs

open Sys2Proof.Machine Sys2Proof.Laws

section
variable {s : State} {x : Arm} {t u : Nat}

/-! ### The first tip that passes a test -/

theorem findTip_isSome {P : Nat → Tip → Bool} : (findTip s P).isSome = true ↔ ∃ u, isTip u ∧ P u (tipOf s u) = true := by
  rw [findTip, List.find?_isSome]
  constructor
  · rintro ⟨u, hu, hP⟩
    simp only [List.mem_map, List.mem_range] at hu
    obtain ⟨i, hi, rfl⟩ := hu
    exact ⟨i + 1, ⟨by omega, by omega⟩, hP⟩
  · rintro ⟨u, ⟨hlow, hhigh⟩, hP⟩
    exact ⟨u, List.mem_map.2 ⟨u - 1, List.mem_range.2 (by omega), by omega⟩, hP⟩

/-- R74: another present tip carries a code that is not 0. -/
theorem codeTaken_iff {code : BitVec 16} : codeTaken s t code = true
    ↔ code ≠ 0 ∧ ∃ u, isTip u ∧ u ≠ t ∧ (tipOf s u).present = true ∧ (tipOf s u).code = code := by
  unfold codeTaken tipWithCode
  split
  · next h => simp [h]
  · next h =>
    rw [findTip_isSome]
    simp only [Bool.and_eq_true, decide_eq_true_eq, ne_eq, h, not_false_eq_true, true_and]
    exact exists_congr fun u => and_congr_right fun _ => by tauto

theorem mountedLatched_iff : mountedLatched s t = true ↔ ∃ x, mountedTip s x = some t ∧ armLatched s x = true := by
  rw [exists_arm]
  simp [mountedLatched]

/-! ### TIP_SET -/

theorem ofNat_bitField (w : Word) (lo : Nat) : BitVec.ofNat 16 (bitField w.toNat lo 16) = w.extractLsb' lo 16 := by
  refine BitVec.eq_of_toNat_eq ?_
  simp [bitField, Nat.shiftRight_eq_div_pow]

theorem bitField_eq (w : Word) (lo : Nat) : bitField w.toNat lo 16 = (w.extractLsb' lo 16).toNat := by
  simp [bitField, Nat.shiftRight_eq_div_pow]

theorem onTip_congr {f g : Tip → Tip} (h : ∀ r, f r = g r) : onTip t f s = onTip t g s := by rw [funext h]

/-- Settles O21: the three checks in order, and the record written. -/
theorem tipSetWritesTheRecord : Obligations.TipSetWritesTheRecord := by
  unfold Obligations.TipSetWritesTheRecord
  intro s tip f h hnumbers t code air inRange carried pinned
  have answer {u : State} {r : Reply} (hown : ownTipSet tip f s = ⟨u, r⟩) :
      exec (.tipSet tip f) s = .next (withReply 0x20 r u) := exec_request (c := .tipSet) rfl h rfl hown
  have hrange : (tipIdOk tip.toNat && tipFieldsOk f) = true ↔ inRange := by
    simp only [Bool.and_eq_true, tipIdOk_iff, tipFieldsOk, decide_eq_true_eq, bitField_eq, inRange, air, t, and_assoc]
  have hcode : BitVec.ofNat 16 (bitField f.w5.toNat 0 16) = code := ofNat_bitField _ _
  have hcarried : codeTaken s tip.toNat code = true ↔ carried := codeTaken_iff
  have hpinned : mountedLatched s tip.toNat = true ↔ pinned := mountedLatched_iff
  have hfalse {b : Bool} {P : Prop} (hb : b = true ↔ P) (hP : ¬ P) : b = false := by rwa [← Bool.not_eq_true, hb]
  refine ⟨fun hbad => answer ?badParam, fun hin hcar hpin => answer ?busy, fun hin hcar hpin => answer ?written⟩
  case badParam =>
    rw [ownTipSet, hcode]
    refine afterChecks_refuse ?_
    by_cases hin : inRange
    · simp [firstRefusal, hrange.2 hin, hcarried.2 (hbad.resolve_left (not_not.2 hin))]
    · exact if_pos (by simp [hfalse hrange hin])
  case busy =>
    rw [ownTipSet, hcode]
    exact afterChecks_refuse (by simp [firstRefusal, hrange.2 hin, hfalse hcarried hcar, hpinned.2 hpin])
  case written =>
    have hwhole := Whole.of_numbersBounded hnumbers
    have hrecord (r : Tip) : tipWritten f r = { r with
        present := true, offset := ⟨f.w0.toInt, f.w1.toInt, f.w2.toInt⟩, radius := f.w3.toNat, latency := f.w4.toNat,
        code := code, airTemp := air.toNat, revision := r.revision + 1 } := by
      rw [tipWritten, hcode, bitField_eq]
    rw [ownTipSet, hcode, afterChecks_pass (by simp [hrange.2 hin, hfalse hcarried hcar, hfalse hpinned hpin])]
    dsimp only
    rw [tipOf_onTip hwhole hin.1 hin.1, if_pos rfl, onTip_congr hrecord]
    rfl

/-! ### PORT_SET -/

theorem tipOf_moveTip (hw : Whole s) (ht : isTip t) (hu : isTip u) (l : TipLocation) :
    tipOf (moveTip t l s) u = if u = t then { tipOf s u with location := l } else tipOf s u := tipOf_onTip hw ht hu _

theorem Whole.evictTip {p : Nat} {v : PortState} (hw : Whole s) : Whole (evictTip p v s) := by
  unfold Machine.evictTip
  split
  · split
    · exact hw
    · exact hw.moveTip _
  · exact hw

theorem tipOf_evictTip {p : Nat} {v : PortState} (hw : Whole s) (hport : ∀ w, portOf s p = .holds w → isTip w) (hu : isTip u) :
    tipOf (evictTip p v s) u
      = if portOf s p = .holds u ∧ v ≠ .holds u then { tipOf s u with location := .absent } else tipOf s u := by
  unfold evictTip
  split
  · next w hw' =>
    split
    · next hv =>
      rw [if_neg]
      rintro ⟨hu', hne⟩
      rw [hw'] at hu'
      cases hu'
      exact hne hv
    · next hv =>
      rw [tipOf_moveTip hw (hport w hw') hu]
      by_cases huw : u = w
      · subst huw; simp [hw', hv]
      · simp [hw', huw, Ne.symm huw]
  · next hno => exact (if_neg (fun h => hno u h.1)).symm

theorem tipOf_placeTip {p : Nat} {v : PortState} (hw : Whole s) (ht : ∀ w, v = .holds w → isTip w) (hu : isTip u) :
    tipOf (placeTip p v s) u = if v = .holds u then { tipOf s u with location := .port p } else tipOf s u := by
  unfold placeTip
  split
  · next w =>
    rw [tipOf_moveTip hw (ht w rfl) hu]
    by_cases huw : u = w
    · subst huw; simp
    · simp [huw, Ne.symm huw]
  · next hno => exact (if_neg (hno u)).symm

theorem Whole.placeTip {p : Nat} {v : PortState} (hw : Whole s) : Whole (placeTip p v s) := by
  unfold Machine.placeTip
  split
  · exact hw.moveTip _
  · exact hw

theorem portOf_setPort (hw : Whole s) {p : Nat} (hp : p < 12) (v : PortState) (q : Nat) :
    portOf (setPort p v s) q = if q = p then v else portOf s q := by
  have hlt : p < s.pcc.ports.length := by rw [hw.ports]; exact hp
  simp only [portOf, setPort, List.getD_eq_getElem?_getD, List.getElem?_set]
  by_cases h : q = p
  · subst h; simp [hlt]
  · simp [h, Ne.symm h]

theorem evictTip_pcc (p : Nat) (v : PortState) : (evictTip p v s).pcc.ports = s.pcc.ports
    ∧ (evictTip p v s).pcc.arm = s.pcc.arm ∧ (evictTip p v s).pcc.occupancy = s.pcc.occupancy := by
  unfold evictTip
  split
  · split <;> exact ⟨rfl, rfl, rfl⟩
  · exact ⟨rfl, rfl, rfl⟩

theorem placeTip_pcc (p : Nat) (v : PortState) : (placeTip p v s).pcc.ports = s.pcc.ports
    ∧ (placeTip p v s).pcc.arm = s.pcc.arm ∧ (placeTip p v s).pcc.occupancy = s.pcc.occupancy := by
  unfold placeTip
  split <;> exact ⟨rfl, rfl, rfl⟩

/-- R170: what a PORT_SET for port `p` makes of a source at RACK. -/
def rackCleared (p : Nat) (q : SourceState) : SourceState := if rackNames p q.detail then clearSource q else q

/-- A change of one element of a list is told by what it makes of the element that stands there. -/
theorem modify_list_congr {α : Type} {l : List α} {n : Nat} {f g : α → α} (h : ∀ a, l[n]? = some a → f a = g a) :
    l.modify n f = l.modify n g := by
  refine List.ext_getElem? fun i => ?_
  by_cases hi : n = i
  · subst hi
    cases ha : l[n]? with
    | none => simp [ha]
    | some a => simp [ha, h a ha]
  · simp [hi]

theorem clearRack_eq (p : Nat) :
    clearRack p s = { s with evu := { s.evu with sources := s.evu.sources.modify 14 (rackCleared p) } } := by
  have hnumber : sourceNumber .rack = 14 := rfl
  have hsource {q : SourceState} (hq : s.evu.sources[14]? = some q) : sourceOf s 14 = q := by simp [sourceOf, hq]
  unfold clearRack
  rw [hnumber]
  split
  · next hnames =>
    rw [clearAt, modify_list_congr (g := rackCleared p) (fun q hq => ?_)]
    rw [hsource hq] at hnames
    rw [rackCleared, if_pos hnames]
  · next hnames =>
    rw [modify_list_congr (g := id) (fun q hq => ?_), List.modify_id]
    rw [hsource hq] at hnames
    rw [rackCleared, if_neg hnames]
    rfl

/-- A change of the tips, the ports and the events, written as the update of them. -/
theorem eq_of_tips_ports {t : State} (h : Touches [.pcc, .evu] s t) (harm : t.pcc.arm = s.pcc.arm)
    (hoccupancy : t.pcc.occupancy = s.pcc.occupancy) :
    t = { s with pcc := { s.pcc with tips := t.pcc.tips, ports := t.pcc.ports }, evu := t.evu } := by
  obtain ⟨hriu, hrqu, htbs, hcen, hthu, htcu, -, hmgd, -, hpending⟩ := h
  obtain ⟨_, _, _, _, _, _, ⟨_, _, _, _⟩, _, _, _⟩ := t
  simp_all

theorem portTipFree_holds {p : Nat} : portTipFree s p (some (.holds t)) = true
    ↔ (tipOf s t).location = .absent ∨ (tipOf s t).location = .unknown ∨ (tipOf s t).location = .port p := by
  simp only [portTipFree]
  split <;> simp_all

/-- What PORT_SET makes of a state whose checks pass (R77, R170), field by field. -/
theorem portSet_result {p : Nat} {v : PortState} (hw : Whole s) (hp : p < 12) (hport : ∀ w, portOf s p = .holds w → isTip w)
    (hv : ∀ w, v = .holds w → isTip w) :
    let r := clearRack p (setPort p v (placeTip p v (evictTip p v s)))
    portOf r p = v ∧ (∀ q ≠ p, portOf r q = portOf s q)
      ∧ (∀ u, isTip u → tipOf r u = { tipOf s u with
          location := if v = .holds u then .port p else if portOf s p = .holds u then .absent else (tipOf s u).location })
      ∧ r.evu = { s.evu with sources := s.evu.sources.modify 14 (rackCleared p) }
      ∧ r = { s with pcc := { s.pcc with tips := r.pcc.tips, ports := r.pcc.ports }, evu := r.evu } := by
  intro r
  let moved := placeTip p v (evictTip p v s)
  have hmoved : Whole moved := hw.evictTip.placeTip
  obtain ⟨hports, harm, hoccupancy⟩ := evictTip_pcc (s := s) p v
  obtain ⟨hports', harm', hoccupancy'⟩ := placeTip_pcc (s := evictTip p v s) p v
  have hsame (q : Nat) : portOf moved q = portOf s q := by simp only [moved, portOf, hports', hports]
  have hr : r = { setPort p v moved with evu := { s.evu with sources := s.evu.sources.modify 14 (rackCleared p) } } := by
    have htouch : Touches [.pcc] s (setPort p v moved) := by simp [moved]
    rw [show r = clearRack p (setPort p v moved) from rfl, clearRack_eq, htouch.evu (by decide)]
  have hportOf (q : Nat) : portOf r q = portOf (setPort p v moved) q := by rw [hr]; rfl
  have htipOf (u : Nat) : tipOf r u = tipOf moved u := by rw [hr]; rfl
  refine ⟨?port, fun q hq => ?other, fun u hu => ?tip, by rw [hr], eq_of_tips_ports ?touches ?arm ?occupancy⟩
  case port => rw [hportOf, portOf_setPort hmoved hp, if_pos rfl]
  case other => rw [hportOf, portOf_setPort hmoved hp, if_neg hq, hsame]
  case tip =>
    rw [htipOf, tipOf_placeTip hw.evictTip hv hu, tipOf_evictTip hw hport hu]
    by_cases hset : v = .holds u
    · simp [hset]
    · by_cases hheld : portOf s p = .holds u <;> simp [hset, hheld]
  case touches => simp [r]
  case arm => rw [hr]; exact harm'.trans harm
  case occupancy => rw [hr]; exact hoccupancy'.trans hoccupancy

/-- Settles O23: the checks in order; the port, the tips moved, and the RACK source. -/
theorem portSetSetsThePort : Obligations.PortSetSetsThePort := by
  unfold Obligations.PortSetSetsThePort
  intro s port state tip h hnumbers htips p v t named idle free
  have hw := Whole.of_numbersBounded hnumbers
  have answer {u : State} {r : Reply} (hown : ownPortSet port state tip s = ⟨u, r⟩) :
      exec (.portSet port state tip) s = .next (withReply 0x22 r u) := exec_request (c := .portSet) rfl h rfl hown
  have hidle : (sessionIdle s .a && sessionIdle s .b) = true ↔ idle := by
    simp [idle, forall_arm, sessionIdle]
  have hnamed : (decide (p < 12) && portTipOk s (portTarget v t)) = true ↔ named := by
    simp only [Bool.and_eq_true, decide_eq_true_eq, named]
    refine and_congr_right fun _ => ?_
    by_cases h0 : v = 0
    · simp [h0, portTarget, portTipOk]
    · by_cases h1 : v = 1
      · simp [h1, portTarget, portTipOk]
      · by_cases h2 : v = 2
        · simp [h2, portTarget, portTipOk, tipIdOk_iff]
        · simp [h0, h1, h2, portTarget, portTipOk]
  have hfree : portTipFree s p (portTarget v t) = true ↔ free := by
    by_cases h2 : v = 2
    · rw [h2, show portTarget 2 t = some (.holds t) from rfl, portTipFree_holds]
      simp only [free, h2, true_imp_iff]
    · by_cases h0 : v = 0
      · simp [free, h0, portTarget, portTipFree]
      · by_cases h1 : v = 1 <;> simp [free, h0, h1, h2, portTarget, portTipFree]
  have hfalse {b : Bool} {P : Prop} (hb : b = true ↔ P) (hP : ¬ P) : b = false := by rwa [← Bool.not_eq_true, hb]
  have hown : ownPortSet port state tip s = afterChecks
      [(!(decide (p < 12) && portTipOk s (portTarget v t)), .badParam),
       (!(sessionIdle s .a && sessionIdle s .b), .busy), (!portTipFree s p (portTarget v t), .wrongState)]
      (fun s => match portTarget v t with
        | some v => served .done (clearRack p (setPort p v (placeTip p v (evictTip p v s))))
        | none => refuse .badParam s) s := rfl
  refine ⟨fun hbad => answer ?badParam, fun hok hbusy => answer ?busy, fun hok hrest helse => answer ?wrongState,
    fun hok hrest hat => ?set⟩
  case badParam => exact hown.trans (afterChecks_refuse (if_pos (by rw [hfalse hnamed hbad]; rfl)))
  case busy => exact hown.trans (afterChecks_refuse (by simp [firstRefusal, hnamed.2 hok, hfalse hidle hbusy]))
  case wrongState =>
    exact hown.trans (afterChecks_refuse (by simp [firstRefusal, hnamed.2 hok, hidle.2 hrest, hfalse hfree helse]))
  case set =>
    obtain ⟨hp, hstate⟩ := hok
    let value : PortState := if v = 0 then .disabled else if v = 1 then .empty else .holds t
    have htarget : portTarget v t = some value := by rcases hstate with hv | hv | ⟨hv, -⟩ <;> simp [portTarget, value, hv]
    have hvalue (u : Nat) : value = .holds u ↔ v = 2 ∧ u = t := by
      rcases hstate with hv | hv | ⟨hv, -⟩ <;> simp [value, hv, eq_comm]
    have hport (u : Nat) (hu : portOf s p = .holds u) : isTip u := by
      have hagrees := htips.1 p hp
      simp only [portAgrees, hu, Bool.and_eq_true, decide_eq_true_eq] at hagrees
      exact hagrees.1
    have hset (u : Nat) (hu : value = .holds u) : isTip u := by
      obtain ⟨hv, rfl⟩ := (hvalue u).1 hu
      rcases hstate with h0 | h1 | ⟨-, htip, -⟩
      · omega
      · omega
      · exact htip
    obtain ⟨hat', hother, htip, hevu, hframe⟩ := portSet_result hw hp hport hset
    refine ⟨_, answer (hown.trans ?_), hat', hother, fun u hu => ?_, hevu.trans ?_, hframe⟩
    · rw [afterChecks_pass (by simp [hnamed.2 ⟨hp, hstate⟩, hidle.2 hrest, hfree.2 hat]), htarget]
      rfl
    · rw [htip u hu]
      simp only [hvalue]
    · refine congrArg (fun f => { s.evu with sources := s.evu.sources.modify 14 f }) (funext fun q => ?_)
      unfold rackCleared rackNames clearSource
      cases q.detail with
      | none => rfl
      | some d => cases d <;> simp

/-! ### ARM_TIP_SET -/

theorem Whole.dismount (hw : Whole s) : Whole (dismount x s) := by
  unfold Machine.dismount
  split
  · exact hw.moveTip _
  · exact hw

theorem tipOf_dismount (hw : Whole s) (hu : isTip u) : tipOf (dismount x s) u
    = if mountedTip s x = some u then { tipOf s u with location := .absent } else tipOf s u := by
  unfold dismount
  split
  · next m hm =>
    rw [tipOf_moveTip hw (mountedTip_eq_some hm).1 hu]
    by_cases hum : u = m
    · simp [hum, hm]
    · rw [if_neg hum, if_neg (fun h => hum (Option.some.inj (h.symm.trans hm)))]
  · next hm => simp [hm]

theorem tipOf_mount (hw : Whole s) (ht : t = 0 ∨ isTip t) (hu : isTip u) : tipOf (mount x t s) u
    = if u = t then { tipOf s u with location := .onArm x } else tipOf s u := by
  unfold mount
  split
  · next h0 => exact (if_neg (fun h => by have := hu.1; omega)).symm
  · next h0 => rw [tipOf_moveTip hw (ht.resolve_left h0) hu]

/-- A change of the tips alone, of one arm's sampling and of the triggers, written as the update of them. -/
theorem eq_of_tips {t : State} (h : Touches [.pcc] s t) (harm : t.pcc.arm = s.pcc.arm) (hports : t.pcc.ports = s.pcc.ports)
    (hoccupancy : t.pcc.occupancy = s.pcc.occupancy) : t = { s with pcc := { s.pcc with tips := t.pcc.tips } } := by
  obtain ⟨hriu, hrqu, htbs, hcen, hthu, htcu, -, hmgd, hevu, hpending⟩ := h
  obtain ⟨_, _, _, _, _, _, ⟨_, _, _, _⟩, _, _, _⟩ := t
  simp_all

theorem mount_dismount_pcc : (mount x t (dismount x s)).pcc.ports = s.pcc.ports
    ∧ (mount x t (dismount x s)).pcc.arm = s.pcc.arm ∧ (mount x t (dismount x s)).pcc.occupancy = s.pcc.occupancy := by
  unfold mount dismount
  split
  · split <;> exact ⟨rfl, rfl, rfl⟩
  · unfold moveTip onTip
    split <;> exact ⟨rfl, rfl, rfl⟩

/-- R25: an emptied history takes back a resolution that was due of a trigger that is not LATCHED. -/
theorem emptyHistory_of_not_latched (h : armLatched s x = false) :
    emptyHistory x s = (s.onCen x (fun c => { c with history := [] })).onTcu x (fun u =>
      { u with touchDue := if u.touchDue = .resolve then .none else u.touchDue }) := by
  have hage : ageLatch x (s.onCen x (fun c => { c with history := [] }))
      = (s.onCen x (fun c => { c with history := [] })).onTcu x (fun u => { u with touchDue := .none }) := by
    unfold ageLatch
    split
    · next l hl => simp [armLatched, isLatched, show triggerOf s x = .latched l from hl] at h
    · rfl
  rw [emptyHistory, hage]
  split
  · next hdue => exact onTcu_congr (congrArg (fun d => { s.tcuOf x with touchDue := d }) (if_pos hdue).symm)
  · next hdue =>
    exact (onTcu_self (s := s.onCen x (fun c => { c with history := [] }))
      (congrArg (fun d => { s.tcuOf x with touchDue := d }) (if_neg hdue))).symm

/-- Settles O24: the checks in order; the two tips, the emptied history and the resolution it takes back. -/
theorem armTipSetMountsTheTip : Obligations.ArmTipSetMountsTheTip := by
  unfold Obligations.ArmTipSetMountsTheTip
  intro s x tip h hnumbers t known quiet free
  have hw := Whole.of_numbersBounded hnumbers
  have answer {u : State} {r : Reply} (hown : ownArmTipSet (armByte x) tip s = ⟨u, r⟩) :
      exec (.armTipSet (armByte x) tip) s = .next (withReply 0x23 r u) := exec_request (c := .armTipSet) rfl h rfl hown
  have hown : ownArmTipSet (armByte x) tip s = afterChecks
      [(decide (t ≠ 0) && !(tipIdOk t && (tipOf s t).present), .badParam),
       (!(sessionIdle s x && decide (triggerOf s x = .disarmed)), .busy),
       (decide (t ≠ 0) && tipPlaced (tipOf s t).location, .wrongState)]
      (fun s => served .done (emptyHistory x (mount x t (dismount x s)))) s := by
    rw [ownArmTipSet, withArm_armByte]
    rfl
  have hknown : (decide (t ≠ 0) && !(tipIdOk t && (tipOf s t).present)) = false ↔ known := by
    rw [Bool.and_eq_false_iff, decide_eq_false_iff_not, not_not, Bool.not_eq_false', Bool.and_eq_true, tipIdOk_iff]
  have hquiet : (!(sessionIdle s x && decide (triggerOf s x = .disarmed))) = false ↔ quiet := by
    simp [quiet, sessionIdle]
  have hfree : (decide (t ≠ 0) && tipPlaced (tipOf s t).location) = false ↔ free := by
    rw [Bool.and_eq_false_iff, decide_eq_false_iff_not, not_not]
    refine or_congr_right ?_
    cases (tipOf s t).location <;> simp [tipPlaced]
  have htrue {b : Bool} {P : Prop} (hb : b = false ↔ P) (hP : ¬ P) : b = true := by rwa [← Bool.not_eq_false, hb]
  refine ⟨fun hbad => answer ?badParam, fun hok hbusy => answer ?busy, fun hok hrest helse => answer ?wrongState,
    fun hok hrest hat => ?set⟩
  case badParam => exact hown.trans (afterChecks_refuse (by rw [htrue hknown hbad]; rfl))
  case busy => exact hown.trans (afterChecks_refuse (by rw [hknown.2 hok, htrue hquiet hbusy]; rfl))
  case wrongState =>
    exact hown.trans (afterChecks_refuse (by rw [hknown.2 hok, hquiet.2 hrest, htrue hfree helse]; rfl))
  case set =>
    let mounted := mount x t (dismount x s)
    have htouch : Touches [.pcc] s mounted := by simp [mounted]
    obtain ⟨hports, harm, hoccupancy⟩ := mount_dismount_pcc (s := s) (x := x) (t := t)
    have hlatched : armLatched mounted x = false := by
      simp [armLatched, triggerOf, State.tcuOf, htouch.tcu (by decide), show (s.tcu.arm.get x).trigger = .disarmed from hrest.2,
        isLatched]
    have hresult := emptyHistory_of_not_latched hlatched
    have hmounted := eq_of_tips htouch harm hports hoccupancy
    refine ⟨_, answer (hown.trans (afterChecks_pass (by rw [hknown.2 hok, hquiet.2 hrest, hfree.2 hat]; simp))), ?_⟩
    rw [hresult]
    refine ⟨fun u hu => ?tips, ?history, fun y => ?trigger, ?frame, fun y => ?due⟩
    case tips =>
      refine (tipOf_mount hw.dismount (hok.imp_right And.left) hu).trans ?_
      rw [tipOf_dismount hw hu]
      by_cases hut : u = t
      · rw [if_pos hut, if_pos hut]
        split <;> rfl
      · rw [if_neg hut, if_neg hut]
        split <;> rfl
    case history => cases x <;> rfl
    case trigger =>
      rw [hmounted]
      cases x <;> cases y <;> rfl
    case frame =>
      rw [hmounted]
      rfl
    case due =>
      rw [hmounted]
      cases x <;> cases y <;> simp [State.onTcu, State.onCen, State.tcuOf, PerArm.modify, PerArm.get] <;> congr

end

end Sys2Proof.Proofs
end

section
/-! The requests on zones, and the releases that fall due (O29, O30, O42). -/
namespace Sys2Proof.Proofs

open Sys2Proof.Machine Sys2Proof.Laws

section
variable {s : State} {x : Arm} {z : Nat}

theorem waits_iff : waits s x = true ↔ ∃ v < 8, waitsOn s x v = true := by simp [waits]

theorem waits_eq_false : waits s x = false ↔ ∀ v < 8, waitsOn s x v = false := by simp [waits]

/-! ### A claim of a zone, by the row of R102 -/

theorem applyClaim_of_kept {r w : Bool} (h : zoneOf s z = .held x r w) :
    claimOutcome s x z = .kept ∧ applyClaim x z s = setZone z (.held x false w) s := by
  have hout : claimOutcome s x z = .kept := by rw [claimOutcome_of_held h, if_pos rfl]
  exact ⟨hout, by simp only [applyClaim, hout, h]⟩

theorem applyClaim_of_free (h : zoneOf s z = .free) :
    claimOutcome s x z = .granted ∧ applyClaim x z s = setZone z (.held x false false) s :=
  ⟨claimOutcome_of_free h, by simp only [applyClaim, claimOutcome_of_free h]⟩

/-- A zone that the other arm holds, by whether and where the arms wait. -/
theorem claimOutcome_of_other {r w : Bool} (h : zoneOf s z = .held (otherArm x) r w) : claimOutcome s x z
    = if w then .alreadyWaiting else if waits s x then .busy else if waits s (otherArm x) then .deadlock else .queued := by
  rw [claimOutcome_of_held h, if_neg (otherArm_ne x)]

/-- A claim that is not granted nor queued leaves the zones. -/
theorem applyClaim_refused (h : claimOutcome s x z = .alreadyWaiting ∨ claimOutcome s x z = .busy
    ∨ claimOutcome s x z = .deadlock) : applyClaim x z s = s := by
  rcases h with h | h | h <;> simp only [applyClaim, h]

theorem applyClaim_queued {r w : Bool} (h : zoneOf s z = .held (otherArm x) r w) (hout : claimOutcome s x z = .queued) :
    applyClaim x z s = setZone z (.held (otherArm x) r true) s := by simp only [applyClaim, hout, h]

/-- Settles O29: the rows of the table of R102. -/
theorem zoneClaimByTable : Obligations.ZoneClaimByTable := by
  unfold Obligations.ZoneClaimByTable
  intro s x zone h z y claim
  have answer {u : State} {r : Reply} (hown : ownZoneClaim (armByte x) zone s = ⟨u, r⟩) :
      claim = .next (withReply 0x40 r u) := exec_inRun (c := .zoneClaim) rfl h hown
  have taken {u : State} {o : ClaimOutcome} (hz : z < 8) (hout : claimOutcome s x z = o) (hzones : applyClaim x z s = u) :
      claim = .next (withReply 0x40 ⟨claimResult o, []⟩ u) := by
    refine answer ?_
    rw [ownZoneClaim, withArm_armByte, afterChecks_pass (by simpa using hz), ← hout, ← hzones]
    rfl
  refine ⟨fun hz => answer ?badParam, fun hz hfree => ?granted, fun r w hz hheld => ?kept, fun r hz hheld => ?waiting,
    fun r hz hheld hx => ?busy, fun r hz hheld hx hy => ?deadlock, fun r hz hheld hx hy => ?queued⟩
  case badParam =>
    rw [ownZoneClaim, withArm_armByte]
    exact afterChecks_refuse (if_pos (decide_eq_true hz))
  case granted => exact taken hz (applyClaim_of_free hfree).1 (applyClaim_of_free hfree).2
  case kept => exact taken hz (applyClaim_of_kept hheld).1 (applyClaim_of_kept hheld).2
  case waiting =>
    have hout : claimOutcome s x z = .alreadyWaiting := claimOutcome_of_other hheld
    exact taken hz hout (applyClaim_refused (.inl hout))
  case busy =>
    have hout : claimOutcome s x z = .busy := by simp [claimOutcome_of_other hheld, waits_iff.2 hx]
    exact taken hz hout (applyClaim_refused (.inr (.inl hout)))
  case deadlock =>
    have hout : claimOutcome s x z = .deadlock := by simp [claimOutcome_of_other hheld, waits_eq_false.2 hx, waits_iff.2 (show ∃ v < 8, waitsOn s (otherArm x) v = true from hy)]
    exact taken hz hout (applyClaim_refused (.inr (.inr hout)))
  case queued =>
    have hout : claimOutcome s x z = .queued := by
      simp [claimOutcome_of_other hheld, waits_eq_false.2 hx, waits_eq_false.2 (show ∀ v < 8, waitsOn s (otherArm x) v = false from hy)]
    exact taken hz hout (applyClaim_queued hheld hout)

/-! ### Releases and grants -/

theorem releaseZone_unwaited {announce r : Bool} (h : zoneOf s z = .held x r false) :
    releaseZone announce z s = setZone z .free (if announce then post (.zone x) (.released z) s else s) := by
  cases announce <;> simp [releaseZone, h]

/-- R103: a release that grants the zone to its waiter. -/
theorem releaseZone_waited {announce r : Bool} (h : zoneOf s z = .held x r true) :
    releaseZone announce z s = grantZone (otherArm x) z (post (.zone x) (.released z) s) := by
  simp [releaseZone, h]

/-- A grant that moves no session on. -/
theorem releaseZone_grants {announce r : Bool} (h : zoneOf s z = .held x r true)
    (hstay : z = 0 → (sessionOf s (otherArm x)).state ≠ .waitZone) : releaseZone announce z s
      = post (.zone (otherArm x)) (.granted z) (setZone z (.held (otherArm x) false false) (post (.zone x) (.released z) s)) :=
  (releaseZone_waited h).trans (if_neg (fun hboth => hstay hboth.1 hboth.2))

/-- R83: a grant of zone 0 that moves a waiting session on. -/
theorem releaseZone_enters {announce r : Bool} (h : zoneOf s z = .held x r true) (h0 : z = 0)
    (hwait : (sessionOf s (otherArm x)).state = .waitZone) : releaseZone announce z s
      = onSession (otherArm x) (fun c =>
          { c with state := if c.dropTip.isSome then .drop else .pick, timer := some (stationField (·.stepTimeout) s) })
        (post (.zone (otherArm x)) (.granted z)
          (setZone z (.held (otherArm x) false false) (post (.zone x) (.released z) s))) :=
  (releaseZone_waited h).trans (if_pos ⟨h0, hwait⟩)

theorem askRelease_marked {w : Bool} (h : zoneOf s z = .held x true w) : askRelease x z s = s := by simp [askRelease, h]

theorem askRelease_inside {w : Bool} (h : zoneOf s z = .held x false w) (hin : insideOf s x z ≠ .outside) :
    askRelease x z s = setZone z (.held x true w) s := by simp [askRelease, h, hin]

theorem askRelease_outside {w : Bool} (h : zoneOf s z = .held x false w) (hout : insideOf s x z = .outside) :
    askRelease x z s = releaseZone false z s := by simp [askRelease, h, hout]

theorem withdrawWait_waited {r w : Bool} (h : zoneOf s z = .held (otherArm x) r w) :
    withdrawWait x z s = setZone z (.held (otherArm x) r false) s := by simp [withdrawWait, h]

/-- Settles O30: the holder, by its inside record and the waiter; the waiter; neither. -/
theorem zoneReleaseByTable : Obligations.ZoneReleaseByTable := by
  unfold Obligations.ZoneReleaseByTable
  intro s x zone h z y release
  have answer {u : State} {r : Reply} (hown : ownZoneRelease (armByte x) zone s = ⟨u, r⟩) :
      release = .next (withReply 0x41 r u) := exec_request (c := .zoneRelease) rfl h rfl hown
  refine ⟨fun hz => answer ?badParam, fun hz hsession => answer ?busy, fun hz hidle => ?_⟩
  case badParam =>
    rw [ownZoneRelease, withArm_armByte]
    exact afterChecks_refuse (if_pos (decide_eq_true hz))
  case busy =>
    rw [ownZoneRelease, withArm_armByte]
    exact afterChecks_refuse (by simp [firstRefusal, show zone.toNat = 0 from hz, sessionIdle, hsession])
  have taken {u : State} {a : Result} (hby : releaseBy x z s = ⟨u, ⟨a, []⟩⟩) : release = .next (withReply 0x41 ⟨a, []⟩ u) := by
    refine answer ?_
    rw [ownZoneRelease, withArm_armByte, afterChecks_pass]
    · exact hby
    · simpa [sessionIdle] using ⟨hz, hidle⟩
  have neither (hholds : holds s x z = false) (hwaits : waitsOn s x z = false) : releaseBy x z s = refuse .badParam s := by
    simp [releaseBy, hholds, hwaits]
  have waiter {r : Bool} (hheld : zoneOf s z = .held y r true) : releaseBy x z s = served .done (withdrawWait x z s) := by
    simp [releaseBy, holds, waitsOn, hheld, y, otherArm_ne]
  have holder {r w : Bool} (hheld : zoneOf s z = .held x r w) : releaseBy x z s
      = served (if decide (insideOf s x z = .outside) && !r then .done else .accepted) (askRelease x z s) := by
    simp [releaseBy, holds, hheld]
  refine ⟨fun hfree => taken ?free, fun r hheld => taken ?other, fun r hheld => taken ?waiter, fun w hheld => taken ?marked,
    fun w hheld hin => taken ?inside, fun hheld hout => taken ?freed, fun hheld hout hstay => taken ?granted,
    fun hheld hout h0 hwait => taken ?entered⟩
  case free => exact neither (by simp [holds, hfree]) (by simp [waitsOn, hfree])
  case other => exact neither (by simp [holds, hheld, y, otherArm_ne]) (by simp [waitsOn, hheld])
  case waiter => rw [waiter hheld, withdrawWait_waited hheld]; rfl
  case marked => rw [holder hheld, askRelease_marked hheld]; simp [served]
  case inside => rw [holder hheld, askRelease_inside hheld hin]; simp [served, hin]
  case freed => rw [holder hheld, askRelease_outside hheld hout, releaseZone_unwaited hheld]; simp [served, hout]
  case granted =>
    rw [holder hheld, askRelease_outside hheld hout, releaseZone_grants hheld hstay]
    simp [served, hout, y]
  case entered =>
    rw [holder hheld, askRelease_outside hheld hout, releaseZone_enters hheld h0 hwait]
    simp [served, hout, y]

/-- Settles O42: a due release frees the zone, or grants it to its waiter. -/
theorem deferredReleaseFreesOrGrants : Obligations.DeferredReleaseFreesOrGrants := by
  unfold Obligations.DeferredReleaseFreesOrGrants
  intro s z
  refine ⟨fun hquiet => congrArg _ (deferredRelease_quiet hquiet), ?_⟩
  intro x hout y released granted
  have due {w : Bool} (hheld : zoneOf s z = .held x true w) : exec (.deferredRelease z) s = .next (releaseZone true z s) :=
    congrArg _ (if_pos (by simp [releaseDue, hheld, hout]))
  refine ⟨fun hheld => (due hheld).trans (congrArg _ ?freed), fun hheld hstay => (due hheld).trans (congrArg _ ?granted),
    fun hheld h0 hwait => (due hheld).trans (congrArg _ ?entered)⟩
  case freed => exact releaseZone_unwaited hheld
  case granted => exact releaseZone_grants hheld hstay
  case entered => exact releaseZone_enters hheld h0 hwait

end

end Sys2Proof.Proofs
end

section
/-! The hold release and the requests on change sessions (O31 to O33). -/
namespace Sys2Proof.Proofs

open Sys2Proof.Machine Sys2Proof.Laws

section
variable {s : State} {x : Arm}

/-! ### HOLD_RELEASE -/

theorem creepOf_getLsbD {zones : BitVec 8} {limit : Bool} {z : Nat} (hz : z < 8) :
    (creepOf zones limit).getLsbD z = zones.getLsbD z := by
  cases limit <;> simp [creepOf, creepLimit, show z < 9 by omega, show z ≠ 8 by omega]

theorem hasCreepLimit_creepOf (zones : BitVec 8) (limit : Bool) : hasCreepLimit (creepOf zones limit) = limit := by
  cases limit <;> simp [hasCreepLimit, creepOf, creepLimit]

/-- R115, R116: a cause stays when its condition does not allow its removal, INTRUSION and LIMIT only without recover. -/
theorem hasCause_remaining (recover : Bool) (c : Cause) : hasCause (remainingCauses s x recover) c
    = (hasCause (s.mgdOf x).causes c
      && !(removable s x c || (recover && (decide (c = .intrusion) || decide (c = .limit))))) := by
  rw [Bool.eq_iff_iff, remainingCauses, hasCause_causesOf, List.mem_filter]
  simp [mem_allCauses, and_assoc]

/-- Settles O31: the causes that stay, the creep entries that enter, the flags cleared. -/
theorem holdReleaseRemovesCauses : Obligations.HoldReleaseRemovesCauses := by
  unfold Obligations.HoldReleaseRemovesCauses
  intro s x recover h g flag allowed
  have answer {u : State} {r : Reply} (hown : ownHoldRelease (armByte x) recover s = ⟨u, r⟩) :
      exec (.holdRelease (armByte x) recover) s = .next (withReply 0x42 r u) := exec_request (c := .holdRelease) rfl h rfl hown
  let moves := decide (flag = 1)
  refine ⟨fun hbad => answer ?badParam, fun hflag => ⟨remainingCauses s x moves, creepAfter s x moves, answer ?released,
    fun c => ?causes, fun z hz => ?zones, ?limit⟩⟩
  case badParam =>
    rw [ownHoldRelease, withArm_armByte]
    exact afterChecks_refuse (if_pos (decide_eq_true hbad))
  case released =>
    have hcauses : ((releaseHold x moves s).mgdOf x).causes = remainingCauses s x moves := by cases x <;> rfl
    have hcreep : ((releaseHold x moves s).mgdOf x).creep = creepAfter s x moves := by cases x <;> rfl
    rw [ownHoldRelease, withArm_armByte, afterChecks_pass (by simp [paramByte, Nat.not_lt.2 (show recover.toNat % 256 ≤ 1 from hflag)]), ← hcauses, ← hcreep]
    rw [hcauses, hcreep]
    cases x <;> rfl
  case causes =>
    rw [hasCause_remaining]
    cases c <;> simp [removable, allowed, moves, g]
  case zones =>
    rw [creepAfter, creepOf_getLsbD hz, BitVec.getLsbD_or, creepZones, BitVec.getLsbD_setWidth, decide_eq_true hz]
    cases hmove : (moves && hasCause (s.mgdOf x).causes .intrusion) <;> simp [moves, g] at hmove ⊢
  case limit => rw [creepAfter, hasCreepLimit_creepOf]

/-! ### CHANGE_BEGIN -/

/-- The state with a session record `c` filled in and the trigger suppressed, the head consistent (R82). -/
def begun (x : Arm) (c : Session) (s : State) : State :=
  (s.onPcc x (fun p => { p with session := c, consistent := true })).onTcu x (fun u => { u with trigger := .suppressed })

theorem fillSession_eq {drop pick : Option Nat} (h : armLatched s x = false) :
    fillSession x drop pick s = begun x (filledSession s x drop pick) s := by
  rw [fillSession, begun, onTrigger]
  refine onTcu_congr (congrArg (fun t => { s.tcuOf x with trigger := t }) ?_)
  exact suppressed_eq h

theorem setZone_self {z : Nat} {v : Zone} (h : zoneOf s z = v) : setZone z v s = s := by
  have hset : s.mgd.zones.set z v = s.mgd.zones := by
    refine List.ext_getElem? fun i => ?_
    rw [List.getElem?_set]
    split_ifs with hi hlt
    · subst hi
      rw [← h, zoneOf, List.getD_eq_getElem?_getD, List.getElem?_eq_getElem hlt, Option.getD_some]
    · subst hi
      exact (List.getElem?_eq_none (Nat.le_of_not_lt hlt)).symm
    · rfl
  rw [setZone, hset]

/-- R83: the step entered after the claim is the record's. -/
theorem enterStep_begun (c : Session) (v : Zone) : enterStep x (setZone 0 v (begun x c s)) = setZone 0 v (begun x
    { c with state := if c.dropTip.isSome then .drop else .pick, timer := some (stationField (·.stepTimeout) s) } s) := by
  cases x <;> rfl

theorem isPort_iff_of_map {d : Option Nat} {e : Option Nat} :
    ((d.map (fun p => decide (p < 12))).getD true && (e.map tipIdOk).getD true) = true
      ↔ (∀ p ∈ d, isPort p) ∧ (∀ u ∈ e, isTip u) := by
  rw [Bool.and_eq_true]
  refine and_congr ?_ ?_
  · cases d <;> simp [isPort]
  · cases e <;> simp [tipIdOk_iff]

theorem dropFits_iff {d : Option Nat} : dropFits s x d = true
    ↔ (mountedTip s x = none ∧ d = none) ∨ (mountedTip s x ≠ none ∧ ∃ p ∈ d, portOf s p = .empty) := by
  unfold dropFits
  cases mountedTip s x <;> cases d <;> simp

theorem portHolding_eq_some {u p : Nat} :
    portHolding s u = some p ↔ (tipOf s u).location = .port p ∧ portOf s p = .holds u := by
  unfold portHolding
  split
  · next q hq =>
    rw [hq]
    split
    · next h => simpa using fun hqp => hqp ▸ h
    · next h => simpa using fun hqp => hqp ▸ h
  · next hno => simpa using fun h => absurd h (hno p)

theorem pickFits_iff {e : Option Nat} : pickFits s e = true
    ↔ ∀ u ∈ e, (tipOf s u).present = true ∧ ∃ p, (tipOf s u).location = .port p ∧ portOf s p = .holds u := by
  cases e with
  | none => simp [pickFits]
  | some u => simp [pickFits, Option.isSome_iff_exists, portHolding_eq_some]

theorem clashes_iff {y : Arm} {d e : Option Nat} : clashes s y d e = true ↔ (sessionOf s y).state ≠ .idle
    ∧ ((d ≠ none ∧ (sessionOf s y).dropPort = d) ∨ (e ≠ none ∧ (sessionOf s y).pickTip = e)) := by
  simp [clashes, Option.isSome_iff_ne_none]

/-- Settles O32: the checks in order, the claim's refusals, and the session that starts. -/
theorem changeBeginStartsTheSession : Obligations.ChangeBeginStartsTheSession := by
  unfold Obligations.ChangeBeginStartsTheSession
  intro s x drop pick h y d e other begin_ refused inRange ready dropFit pickFit clash passed waiting
  have answer {u : State} {r : Reply} (hown : ownChangeBegin (armByte x) drop pick s = ⟨u, r⟩) :
      begin_ = .next (withReply 0x48 r u) := exec_inRun (c := .changeBegin) rfl h hown
  have hown : ownChangeBegin (armByte x) drop pick s
      = afterChecks (changeChecks s x d e) (fun s => served .accepted (beginSession x d e s)) s := by
    rw [ownChangeBegin, withArm_armByte]
    rfl
  have refuse {r : Result} (hr : firstRefusal (changeChecks s x d e) = some r) : refused r :=
    answer (hown.trans (afterChecks_refuse hr))
  have hrun : decide (s.riu.station ≠ .run) = false := by simp [h.2]
  have hrange : ((d.map (fun p => decide (p < 12))).getD true && (e.map tipIdOk).getD true) = true ↔ inRange :=
    isPort_iff_of_map
  have hready : (sessionIdle s x && !(s.tcuOf x).bracketOpen && !armLatched s x) = true ↔ ready := by
    simp [ready, sessionIdle, and_assoc]
  have hdrop : dropFits s x d = true ↔ dropFit := dropFits_iff
  have hpick : pickFits s e = true ↔ pickFit := pickFits_iff
  have hclash : clashes s (otherArm x) d e = true ↔ clash := clashes_iff
  have hnone : (d.isNone && e.isNone) = true ↔ d = none ∧ e = none := by simp
  have hfalse {b : Bool} {P : Prop} (hb : b = true ↔ P) (hP : ¬ P) : b = false := by rwa [← Bool.not_eq_true, hb]
  have hpassed (hp : passed) : firstRefusal (changeChecks s x d e) = firstRefusal
      [(decide (claimOutcome s x 0 = .busy), .busy), (decide (claimOutcome s x 0 = .deadlock), .deadlock)] := by
    obtain ⟨hin, hrest, hd, he, hno, hsome⟩ := hp
    simp [changeChecks, firstRefusal, h.2, hrange.2 hin, hready.2 hrest, hdrop.2 hd, hpick.2 he, hfalse hclash hno,
      hfalse hnone hsome]
  have begins (hp : passed) (hfirst : claimOutcome s x 0 ≠ .busy) (hsecond : claimOutcome s x 0 ≠ .deadlock) {u : State}
      (hu : beginSession x d e s = u) : begin_ = .next (withReply 0x48 ⟨.accepted, []⟩ u) := by
    refine answer (hown.trans ?_)
    have hpass : firstRefusal (changeChecks s x d e) = none := by simp [hpassed hp, firstRefusal, hfirst, hsecond]
    rw [afterChecks, hpass, ← hu]
    rfl
  refine ⟨fun hbad => refuse ?range, fun hin hbusy => refuse ?busy, fun hin hrest hunfit => refuse ?unfit,
    fun hin hrest hd he hmeet => refuse ?clash, fun hin hrest hd he hno hdn hen => refuse ?empty,
    fun r hp hheld hx => refuse ?claimBusy, fun r hp hheld hx hy => refuse ?claimDeadlock, fun q hp hq => ?_⟩
  case range => simp [changeChecks, firstRefusal, h.2, hfalse hrange hbad]
  case busy => simp [changeChecks, firstRefusal, h.2, hrange.2 hin, hfalse hready hbusy]
  case unfit =>
    by_cases hd : dropFit
    · have he : ¬ pickFit := fun he => hunfit ⟨hd, he⟩
      simp [changeChecks, firstRefusal, h.2, hrange.2 hin, hready.2 hrest, hdrop.2 hd, hfalse hpick he]
    · simp [changeChecks, firstRefusal, h.2, hrange.2 hin, hready.2 hrest, hfalse hdrop hd]
  case clash => simp [changeChecks, firstRefusal, h.2, hrange.2 hin, hready.2 hrest, hdrop.2 hd, hpick.2 he, hclash.2 hmeet]
  case empty =>
    simp [changeChecks, firstRefusal, h.2, hrange.2 hin, hready.2 hrest, hdrop.2 hd, hpick.2 he, hfalse hclash hno,
      hnone.2 ⟨hdn, hen⟩]
  case claimBusy =>
    have hout : claimOutcome s x 0 = .busy := by simp [claimOutcome_of_other hheld, waits_iff.2 hx]
    simp [hpassed hp, firstRefusal, hout]
  case claimDeadlock =>
    have hout : claimOutcome s x 0 = .deadlock := by
      simp [claimOutcome_of_other hheld, Bool.eq_false_iff.2 (fun hw => hx (waits_iff.1 hw)), waits_iff.2 (show ∃ v < 8, waitsOn s (otherArm x) v = true from hy)]
    simp [hpassed hp, firstRefusal, hout]
  obtain ⟨-, ⟨-, -, hlatched⟩, -, hfits, -, -⟩ := id hp
  have hport : e.bind (portHolding s) = q := by
    rcases hq with ⟨he, rfl⟩ | ⟨u, p, he, rfl, hloc⟩
    · rw [he]; rfl
    · obtain ⟨-, p', hloc', hholds⟩ := hfits u he
      obtain rfl : p = p' := by simpa [hloc] using hloc'
      exact (congrArg (·.bind (portHolding s)) he).trans (portHolding_eq_some.2 ⟨hloc, hholds⟩)
  have hfilled : fillSession x d e s = Proofs.begun x ⟨.waitZone, mountedTip s x, d, e, q, none, none⟩ s := by
    rw [fillSession_eq hlatched, filledSession, hport]
  have hzone (z : Zone) (hz : zoneOf s 0 = z) : zoneOf (fillSession x d e s) 0 = z := hz
  intro record begun accepted stepping
  have steps {o : ClaimOutcome} {v : Zone} (hout : claimOutcome s x 0 = o) (ho : claimResult o = .done)
      (hclaim : applyClaim x 0 (fillSession x d e s) = setZone 0 v (fillSession x d e s)) :
      accepted (setZone 0 v stepping) := by
    refine begins hp ?_ ?_ ?_
    · rintro hb; rw [← hout, hb] at ho; cases ho
    · rintro hb; rw [← hout, hb] at ho; cases ho
    · rw [beginSession_eq, hout, if_pos ho, hclaim, hfilled, enterStep_begun]
      rfl
  refine ⟨fun hfree => ?granted, fun r w hheld => ?kept, fun r w hheld hwait => ?waits⟩
  case granted => exact steps (claimOutcome_of_free hfree) rfl (applyClaim_of_free (hzone _ hfree)).2
  case kept => exact steps (applyClaim_of_kept hheld).1 rfl (applyClaim_of_kept (hzone _ hheld)).2
  case waits =>
    have waits_ {o : ClaimOutcome} (hout : claimOutcome s x 0 = o) (hnot : claimResult o = .accepted)
        (hclaim : applyClaim x 0 (fillSession x d e s) = setZone 0 (.held y r true) (fillSession x d e s)) :
        accepted (setZone 0 (.held y r true) (begun (record .waitZone none))) := by
      refine begins hp ?_ ?_ ?_
      · rintro hb; rw [← hout, hb] at hnot; cases hnot
      · rintro hb; rw [← hout, hb] at hnot; cases hnot
      · rw [beginSession_eq, hout, hnot, if_neg (by decide), hclaim, hfilled]
        rfl
    cases w with
    | true =>
      have hout : claimOutcome s x 0 = .alreadyWaiting := claimOutcome_of_other hheld
      have hout' : claimOutcome (fillSession x d e s) x 0 = .alreadyWaiting := claimOutcome_of_other (hzone _ hheld)
      exact waits_ hout rfl ((applyClaim_refused (.inl hout')).trans (setZone_self (hzone _ hheld)).symm)
    | false =>
      obtain ⟨hx, hy⟩ := hwait.resolve_left (by decide)
      have hno : waits s x = false := Bool.eq_false_iff.2 fun hw => hx (waits_iff.1 hw)
      have hno' : waits s (otherArm x) = false := Bool.eq_false_iff.2 fun hw => hy (waits_iff.1 hw)
      have hout : claimOutcome s x 0 = .queued := by simp [claimOutcome_of_other hheld, hno, hno']
      have hout' : claimOutcome (fillSession x d e s) x 0 = .queued := (claimOutcome_congr rfl).trans hout
      exact waits_ hout rfl (applyClaim_queued (hzone _ hheld) hout')

/-! ### CHANGE_ABORT -/

/-- The release of zone 0 requested at the end of a session that holds it (R104). -/
theorem askRelease_eq_sessionRelease {w : Bool} (h : zoneOf s 0 = .held x false w) :
    askRelease x 0 s = sessionRelease x w s := by
  unfold sessionRelease
  by_cases hout : insideOf s x 0 = .outside
  · rw [askRelease_outside h hout, if_neg (not_not.2 hout)]
    cases w with
    | false => rw [releaseZone_unwaited h, if_pos rfl]; rfl
    | true =>
      by_cases hwait : (sessionOf s (otherArm x)).state = .waitZone
      · rw [releaseZone_enters h rfl hwait]; simp [hwait]
      · rw [releaseZone_grants h (fun _ => hwait)]; simp [hwait]
  · rw [askRelease_inside h hout, if_pos hout]

/-- The end of a session (R88, R91). -/
theorem clearSession_eq_sessionEnd : clearSession x (onTrigger x restored s) = sessionEnd x s := by
  refine congrArg (clearSession x) (onTcu_congr (congrArg (fun t => { s.tcuOf x with trigger := t }) ?_))
  cases (s.tcuOf x).trigger <;> rfl

/-- Settles O33: the session IDLE, waiting, and at work or in FAULT. -/
theorem changeAbortEndsTheSession : Obligations.ChangeAbortEndsTheSession := by
  unfold Obligations.ChangeAbortEndsTheSession
  intro s x h c done
  have answer {u : State} {r : Reply} (hown : ownChangeAbort (armByte x) s = ⟨u, r⟩) :
      exec (.changeAbort (armByte x)) s = .next (withReply 0x49 r u) := exec_request (c := .changeAbort) rfl h rfl hown
  have hidle (hk : c.state = .idle) : ownChangeAbort (armByte x) s = served .done s := by
    simp only [ownChangeAbort, withArm_armByte, show (sessionOf s x).state = .idle from hk]
  have hwaiting (hk : c.state = .waitZone) : ownChangeAbort (armByte x) s
      = served .done (post (.change x) (.aborted .waitZone) (cancelWaiting x s)) := by
    simp only [ownChangeAbort, withArm_armByte, show (sessionOf s x).state = .waitZone from hk]
  have hworking {k : SessionState} (hk : c.state = k) (hi : k ≠ .idle) (hw : k ≠ .waitZone) :
      ownChangeAbort (armByte x) s = served .done (abortStep x s) := by
    rw [ownChangeAbort, withArm_armByte]
    split
    · next h0 => exact absurd (hk.symm.trans h0) hi
    · next h0 => exact absurd (hk.symm.trans h0) hw
    · rfl
  refine ⟨fun hk => answer (hidle hk), fun r w hk hheld => answer ((hwaiting hk).trans ?waiting),
    fun w hwork hheld => answer ?working⟩
  case waiting =>
    rw [cancelWaiting, clearSession_eq_sessionEnd, withdrawWait_waited hheld]
    rfl
  case working =>
    have hstep : ownChangeAbort (armByte x) s = served .done (abortStep x s) := by
      rcases hwork with hk | hk | hk <;> exact hworking hk (by decide) (by decide)
    have hraised : whenDo (decide (c.state ≠ .fault)) (raise x .abort) s = if c.state = .fault then s else raise x .abort s := by
      rcases hwork with hk | hk | hk <;> simp [hk, whenDo]
    rw [hstep, abortStep, clearSession_eq_sessionEnd, hraised, askRelease_eq_sessionRelease (w := w)]
    · rfl
    · split <;> exact hheld

end

end Sys2Proof.Proofs
end

section
/-! The requests on the station's state (O13, O14). -/
namespace Sys2Proof.Proofs

open Sys2Proof.Machine Sys2Proof.Laws

section
variable {s : State} {x : Arm}

/-! ### The entry into CONFIG -/

/-- R148, R83: what the entry into CONFIG leaves of a trigger; `w` says whether the arm's session waits. -/
def leftTrigger (w : Bool) : Trigger → Trigger
  | .armed => .disarmed
  | .rearm _ => .disarmed
  | .suppressed => if w then .disarmed else .suppressed
  | other => other

/-- R148, R83: what the entry into CONFIG leaves of a session. -/
def leftPcc (w : Bool) (p : PccArm) : PccArm := if w then { p with session := Session.idle, changeDue := false } else p

/-- R105: zone 0 without the wait of an arm that waits. -/
def leftZone (x : Arm) (w : Bool) : Zone → Zone
  | .held h r v => .held h r (v && !(w && decide (h = otherArm x)))
  | .free => .free

/-- What the entry into CONFIG leaves of a state, by whether the arm's session waits (R148). -/
def leftArm (x : Arm) (w : Bool) (s : State) : State :=
  { s with
    tcu := { s.tcu with arm := s.tcu.arm.modify x (fun u => { u with trigger := leftTrigger w u.trigger }) },
    pcc := { s.pcc with arm := s.pcc.arm.modify x (leftPcc w) },
    thu := { s.thu with arm := s.thu.arm.modify x (fun t => { t with countdown := none }) },
    mgd := { s.mgd with zones := s.mgd.zones.set 0 (leftZone x w (zoneOf s 0)) } }

theorem leftTrigger_standDown (t : Trigger) : standDown t = leftTrigger false t := by cases t <;> rfl

theorem leftTrigger_restored (t : Trigger) : standDown (restored t) = leftTrigger true t := by cases t <;> rfl

theorem leftZone_false (z : Zone) : leftZone x false z = z := by cases z <;> simp [leftZone]

theorem setZone_leftZone (w : Bool) :
    setZone 0 (leftZone x w (zoneOf s 0)) s = if w then withdrawWait x 0 s else s := by
  cases w with
  | false => exact setZone_self (leftZone_false _).symm
  | true =>
    unfold withdrawWait
    cases hz : zoneOf s 0 with
    | free => exact setZone_self hz
    | held h r v =>
      by_cases hh : h = otherArm x
      · simp [leftZone, hh]
      · simp only [leftZone, hh, decide_false, Bool.and_false, Bool.not_false, Bool.and_true, if_true, if_false]
        exact setZone_self hz

theorem leaveRun_eq : leaveRun x s = leftArm x (decide ((sessionOf s x).state = .waitZone)) s := by
  by_cases hwait : (sessionOf s x).state = .waitZone
  · have hzones : withdrawWait x 0 s = setZone 0 (leftZone x true (zoneOf s 0)) s := (setZone_leftZone true).symm
    rw [decide_eq_true hwait, leaveRun, if_pos hwait, cancelWaiting, hzones]
    cases x <;> simp [leftArm, onTrigger, clearSession, State.onTcu, State.onPcc, State.onThu, setZone, PerArm.modify, leftPcc,
      ← leftTrigger_restored]
  · have hzones : setZone 0 (leftZone x false (zoneOf s 0)) s = s := setZone_leftZone false
    rw [decide_eq_false hwait, leaveRun, if_neg hwait]
    conv_lhs => rw [← hzones]
    cases x <;> simp [leftArm, onTrigger, State.onTcu, State.onThu, setZone, PerArm.modify, leftPcc, leftTrigger_standDown]

theorem set_set_getD {α : Type} (l : List α) (d : α) (f g : α → α) :
    (l.set 0 (f (l.getD 0 d))).set 0 (g ((l.set 0 (f (l.getD 0 d))).getD 0 d)) = l.set 0 (g (f (l.getD 0 d))) := by
  cases l <;> simp

/-- R148: the entry into CONFIG from RUN, both arms at once. -/
theorem enterConfig_leftArm : enterConfig s = addMode (withStation .config
    (leftArm .b (decide ((sessionOf s .b).state = .waitZone)) (leftArm .a (decide ((sessionOf s .a).state = .waitZone)) s))) := by
  rw [enterConfig_eq, leaveRun_eq, leaveRun_eq]
  rfl

/-- R148, R83: the waits withdrawn, whichever arms wait. -/
theorem zones_enterConfig : (enterConfig s).mgd.zones = s.mgd.zones.set 0 (match zoneOf s 0 with
    | .held h r w => .held h r (w && !decide ((sessionOf s (otherArm h)).state = .waitZone))
    | .free => .free) := by
  rw [enterConfig_leftArm]
  refine (set_set_getD s.mgd.zones .free (leftZone .a _) (leftZone .b _)).trans (congrArg (s.mgd.zones.set 0) ?_)
  unfold zoneOf
  cases s.mgd.zones.getD 0 .free with
  | free => rfl
  | held h r w => cases h <;> simp [leftZone, otherArm] <;> rfl

theorem onThu_self {f : ThuArm → ThuArm} (h : f (s.thuOf x) = s.thuOf x) : s.onThu x f = s := by
  rw [State.onThu, modify_self h]

/-- R147: the countdown that the entry into RUN leaves. -/
theorem startCountdown_eq : startCountdown x s
    = s.onThu x (fun t => if t.deferred then t else { t with countdown := loadedCountdown s }) := by
  unfold startCountdown
  split
  · next hd => exact (onThu_self (f := fun t => if t.deferred then t else { t with countdown := loadedCountdown s }) (if_pos hd)).symm
  · next hd => exact onThu_congr (if_neg hd).symm

/-- Settles O13: the state named and the state it finds. -/
theorem stationModeTransitions : Obligations.StationModeTransitions := by
  unfold Obligations.StationModeTransitions
  intro s w h v answers
  have answer {r : Result} {code : Word} {t : State} (hown : ownStationMode w s = ⟨t, ⟨r, [code]⟩⟩) : answers r code t :=
    exec_request (c := .stationMode) rfl h rfl hown
  have hv : paramByte w = v := rfl
  have hstation : s.riu.station = .config ∨ s.riu.station = .run := by
    have hin := h.2
    cases hs : s.riu.station <;> simp_all
  refine ⟨fun h1 h2 => answer ?neither, fun h2 hrun => answer ?runFromRun, fun h2 hconfig hnone => answer ?notReady,
    fun h2 hconfig hmap hrecord => answer ?enters, fun h1 hconfig => answer ?configFromConfig, fun h1 hrun hbusy => answer ?busy,
    fun h1 hrun hrest => ⟨enterConfig s, answer ?leaves, ?_⟩⟩
  case neither =>
    rw [ownStationMode, hv, if_neg h2, if_neg h1]
    rcases hstation with hs | hs <;> simp only [modeReply, hs] <;> rfl
  case runFromRun =>
    rw [ownStationMode, hv, if_pos h2, if_pos hrun]
    rw [modeReply, hrun]
    rfl
  case notReady =>
    rw [ownStationMode, hv, if_pos h2, if_neg (by simp [hconfig]), if_pos (by simpa using hnone)]
    rw [modeReply, hconfig]
    rfl
  case enters =>
    rw [ownStationMode, hv, if_pos h2, if_neg (by simp [hconfig]), if_neg (by simp [hmap, hrecord])]
    rw [enterRun, startCountdown_eq, startCountdown_eq]
    rfl
  case configFromConfig =>
    rw [ownStationMode, hv, if_neg (by omega), if_pos h1, if_pos hconfig]
    rw [modeReply, hconfig]
    rfl
  case busy =>
    rw [ownStationMode, hv, if_neg (by omega), if_pos h1, if_neg (by simp [hrun]), if_pos ?_]
    · rw [modeReply, hrun]
      rfl
    · obtain ⟨x, hx | hx⟩ := hbusy <;> cases x <;> simp [hx]
  case leaves =>
    rw [ownStationMode, hv, if_neg (by omega), if_pos h1, if_neg (by simp [hrun]), if_neg ?_]
    · have hconfig : (enterConfig s).riu.station = .config := by rw [enterConfig_leftArm]; rfl
      rw [modeReply, hconfig]
      rfl
    · simp [hrest .a, hrest .b]
  refine ⟨?riu, fun x => ?tcu, fun x => ?pcc, fun x => ?thu, fun x => ?mgd, zones_enterConfig, ?frame⟩
  case riu => rw [enterConfig_leftArm]; rfl
  case tcu => rw [enterConfig_leftArm]; cases x <;> rfl
  case pcc => rw [enterConfig_leftArm]; cases x <;> rfl
  case thu => rw [enterConfig_leftArm]; cases x <;> rfl
  case mgd => rw [enterConfig_leftArm]; cases x <;> rfl
  case frame => rw [enterConfig_leftArm]; rfl

/-! ### STATION_RESET -/

theorem interruptSession_rest (h : inStep (sessionOf s x) = false) : interruptSession x s = s := by
  unfold interruptSession
  cases hs : (sessionOf s x).state <;> simp [inStep, hs] at h ⊢

/-- R96: the tip and the port of a step that a warm reset interrupts. -/
theorem interruptSession_step {t p : Nat}
    (h : ((sessionOf s x).state = .drop ∧ (sessionOf s x).dropTip = some t ∧ (sessionOf s x).dropPort = some p)
      ∨ ((sessionOf s x).state = .pick ∧ (sessionOf s x).pickTip = some t ∧ (sessionOf s x).pickPort = some p)) :
    interruptSession x s = setPort p .unverified (moveTip t .unknown s) := by
  rcases h with ⟨hs, ht, hp⟩ | ⟨hs, ht, hp⟩ <;> simp [interruptSession, hs, ht, hp]

/-- The state with other tips and ports. -/
def withRack (tips : List Tip) (ports : List PortState) (s : State) : State :=
  { s with pcc := { s.pcc with tips := tips, ports := ports } }

/-- An interruption changes tips and ports alone. -/
theorem interruptSession_withRack : ∃ tips ports, interruptSession x s = withRack tips ports s := by
  unfold interruptSession
  dsimp only
  split
  · split
    · exact ⟨_, _, rfl⟩
    · exact ⟨_, _, rfl⟩
  · split
    · exact ⟨_, _, rfl⟩
    · exact ⟨_, _, rfl⟩
  · exact ⟨_, _, rfl⟩

/-- Where one arm at most is in a step, its interruption is all that happens (R96). -/
theorem interruptSessions_of_rest (h : inStep (sessionOf s (otherArm x)) = false) :
    interruptSession .b (interruptSession .a s) = interruptSession x s := by
  cases x with
  | a =>
    obtain ⟨tips, ports, heq⟩ := interruptSession_withRack (x := .a) (s := s)
    exact interruptSession_rest (by rw [heq]; exact h)
  | b => exact congrArg (interruptSession .b) (interruptSession_rest h)

/-- The warm-reset values of every block (R153), with the tips and the ports that the interruptions leave. -/
theorem warmReset_eq : ∃ tips ports, interruptSession .b (interruptSession .a s) = withRack tips ports s
    ∧ warmReset s = { s with
      riu := { s.riu with station := .config, missed := 0, ringLoss := false, deadline := deadlineFromFrame s },
      tbs := s.tbs.all cutCheck, cen := s.cen.both warmCen, thu := Thu.reset,
      tcu := { Tcu.reset with workpiece := s.tcu.workpiece },
      pcc := { s.pcc with tips := tips, ports := ports, arm := s.pcc.arm.both warmPcc },
      mgd := { Mgd.reset with arm := Mgd.reset.arm.both (fun g => { g with causes := addCause g.causes .mode }) },
      evu := clearEvents s.evu } := by
  obtain ⟨tips, ports, ha⟩ := interruptSession_withRack (x := .a) (s := s)
  obtain ⟨tips', ports', hb⟩ := interruptSession_withRack (x := .b) (s := withRack tips ports s)
  have hu : interruptSession .b (interruptSession .a s) = withRack tips' ports' s := by rw [ha, hb]; rfl
  refine ⟨tips', ports', hu, ?_⟩
  unfold warmReset
  rw [hu]
  rfl

/-- Settles O14: every block's warm-reset values, and the tip and the port of an interrupted step. -/
theorem stationResetIsWarmReset : Obligations.StationResetIsWarmReset := by
  unfold Obligations.StationResetIsWarmReset
  intro s h hnumbers
  have hw := Whole.of_numbersBounded hnumbers
  obtain ⟨tips, ports, hrack, hreset⟩ := warmReset_eq (s := s)
  refine ⟨_, exec_request (c := .stationReset) rfl h rfl rfl, ?_⟩
  rw [hreset]
  have hmode : addCause 0 .mode = causeOnly .mode := by decide
  refine ⟨rfl, rfl, fun k => ?checks, fun x => ?cen, rfl, rfl, fun x => ?pcc, rfl, fun hrest => ?rest,
    fun x tip port htip hport hother hstep => ?step, rfl, fun x => ?mgd, rfl, rfl⟩
  case checks =>
    refine Eq.trans (b := cutCheck (s.tbsOf k)) (get_kind_all s.tbs k cutCheck) ?_
    unfold cutCheck
    cases hk : (s.tbsOf k).state <;> simp [← hk]
  case cen => cases x <;> rfl
  case pcc => cases x <;> rfl
  case mgd => cases x <;> exact congrArg (fun c => { MgdArm.reset with causes := c }) hmode
  case rest =>
    rw [interruptSessions_of_rest (x := .a) (hrest _), interruptSession_rest (hrest _)] at hrack
    exact ⟨congrArg (·.pcc.tips) hrack.symm, congrArg (·.pcc.ports) hrack.symm⟩
  case step =>
    rw [interruptSessions_of_rest hother, interruptSession_step hstep] at hrack
    have htips (u : Nat) (hu : isTip u) : tipOf (withRack tips ports s) u
        = if u = tip then { tipOf s u with location := .unknown } else tipOf s u := by
      rw [← hrack]
      exact tipOf_moveTip hw htip hu _
    have hports (p : Nat) : portOf (withRack tips ports s) p = if p = port then .unverified else portOf s p := by
      rw [← hrack, portOf_setPort (hw.moveTip _) hport]
      rfl
    exact ⟨(htips tip htip).trans (if_pos rfl), (hports port).trans (if_pos rfl),
      fun u hu hne => (htips u hu).trans (if_neg hne), fun p hp => (hports p).trans (if_neg hp)⟩

end

end Sys2Proof.Proofs
end

section
/-! The first broken rule of a list of content rules, the cross test, and TABLE_ACTIVATE (O18, O19). -/
namespace Sys2Proof.Proofs

open Sys2Proof.Machine Sys2Proof.Laws

/-- A list of content rules is broken at a word offset (R126). -/
def BrokenIn (rules : List ContentRule) (o : Nat) : Prop := ∃ r ∈ rules, r.offset = o ∧ r.holds = false

section
variable {rules : List ContentRule} {o : Nat}

@[simp] theorem brokenIn_nil : ¬ BrokenIn [] o := by simp [BrokenIn]

@[simp] theorem brokenIn_cons {r : ContentRule} :
    BrokenIn (r :: rules) o ↔ (r.offset = o ∧ r.holds = false) ∨ BrokenIn rules o := by simp [BrokenIn]

@[simp] theorem brokenIn_append {more : List ContentRule} : BrokenIn (rules ++ more) o ↔ BrokenIn rules o ∨ BrokenIn more o := by
  simp [BrokenIn, or_and_right, exists_or]

@[simp] theorem brokenIn_flatMap {α : Type} {l : List α} {f : α → List ContentRule} :
    BrokenIn (l.flatMap f) o ↔ ∃ a ∈ l, BrokenIn (f a) o := by
  simp only [BrokenIn, List.mem_flatMap]
  constructor
  · rintro ⟨r, ⟨a, ha, hr⟩, hbroken⟩; exact ⟨a, ha, r, hr, hbroken⟩
  · rintro ⟨a, ha, r, hr, hbroken⟩; exact ⟨r, ⟨a, ha, hr⟩, hbroken⟩

@[simp] theorem brokenIn_map {α : Type} {l : List α} {f : α → ContentRule} :
    BrokenIn (l.map f) o ↔ ∃ a ∈ l, (f a).offset = o ∧ (f a).holds = false := by simp [BrokenIn]

/-- R126: the offset named is the first at which a rule is broken. -/
theorem firstBroken_spec : match firstBroken rules with
    | none => ∀ o, ¬ BrokenIn rules o
    | some o => BrokenIn rules o ∧ ∀ p < o, ¬ BrokenIn rules p := by
  induction rules with
  | nil => exact fun o => brokenIn_nil
  | cons r rs ih =>
    cases hr : r.holds with
    | true =>
      have hskip (o : Nat) : BrokenIn (r :: rs) o ↔ BrokenIn rs o := by simp [hr]
      rw [firstBroken, if_pos hr]
      simpa only [hskip] using ih
    | false =>
      rw [firstBroken, if_neg (by simp [hr])]
      cases hrest : firstBroken rs with
      | none =>
        rw [hrest] at ih
        exact ⟨by simp [hr], fun p hp => by simpa [hr, ih p] using fun h : r.offset = p => by omega⟩
      | some o =>
        rw [hrest] at ih
        obtain ⟨hbroken, hfirst⟩ := ih
        refine ⟨?_, fun p hp => ?_⟩
        · rcases Nat.le_total r.offset o with hle | hle
          · simp [hr, Nat.min_eq_left hle]
          · simp [hr, Nat.min_eq_right hle, hbroken]
        · simpa [hr, hfirst p (by omega)] using fun h : r.offset = p => by omega

theorem firstBroken_eq_none : firstBroken rules = none ↔ ∀ o, ¬ BrokenIn rules o := by
  have hspec := firstBroken_spec (rules := rules)
  constructor
  · intro h; rw [h] at hspec; exact hspec
  · intro h
    cases hf : firstBroken rules with
    | none => rfl
    | some o => rw [hf] at hspec; exact absurd hspec.1 (h o)

theorem firstBroken_eq_some : firstBroken rules = some o ↔ BrokenIn rules o ∧ ∀ p < o, ¬ BrokenIn rules p := by
  have hspec := firstBroken_spec (rules := rules)
  cases hf : firstBroken rules with
  | none =>
    rw [hf] at hspec
    exact ⟨(fun h => by cases h), fun h => absurd h.1 (hspec o)⟩
  | some q =>
    rw [hf] at hspec
    constructor
    · rintro ⟨⟩; exact hspec
    · rintro ⟨hbroken, hfirst⟩
      have h1 : ¬ o < q := fun h => hspec.2 o h hbroken
      have h2 : ¬ q < o := fun h => hfirst q h hspec.1
      rw [show q = o by omega]

end

/-! ### Slots against a station window -/

section
variable {s : State} {b : Bank} {w o : Nat} {k : TableKind}

theorem slotLength_eq (kind : Nat) : slotLength kind = lengthOf kind := by
  unfold slotLength lengthOf
  split_ifs with h1 h2 h3 h4
  · subst h1; rfl
  · subst h2; rfl
  · subst h3; rfl
  · subst h4; rfl
  · split <;> simp_all

theorem mem_usedSlots {r : RawSlot} : r ∈ usedSlots b ↔ ∃ e, usedEntry b e ∧ r = rawSlot b e := by
  simp only [usedSlots, List.mem_filter, List.mem_map, List.mem_range, decide_eq_true_eq]
  constructor
  · rintro ⟨⟨e, he, rfl⟩, hused⟩; exact ⟨e, ⟨he, hused⟩, rfl⟩
  · rintro ⟨e, ⟨he, hused⟩, rfl⟩; exact ⟨⟨e, he, rfl⟩, hused⟩

theorem meetsWindow_rawSlot (b : Bank) (e w : Nat) : meetsWindow w (rawSlot b e) = true ↔ entryMeets b e w 256 := by
  rw [meetsWindow, sharesByte, Bool.and_eq_true, decide_eq_true_iff, decide_eq_true_iff, slotLength_eq]
  rfl

/-- The window rules of the used slots are broken at the offset words of the entries that meet the window. -/
theorem brokenIn_slotWindowRules {window : Option Nat} :
    BrokenIn ((usedSlots b).flatMap (slotWindowRules window)) o ↔ ∃ w ∈ window, ∃ e, o = 3 * e + 2 ∧ meetsWindowAt b e w := by
  cases window with
  | none => simp [slotWindowRules]
  | some w =>
    simp only [slotWindowRules, brokenIn_flatMap, mem_usedSlots, brokenIn_cons, brokenIn_nil, or_false, Bool.not_eq_false',
      Option.mem_def, Option.some.injEq, exists_eq_left']
    constructor
    · rintro ⟨_, ⟨e, hused, rfl⟩, ho, hmeets⟩
      exact ⟨e, ho.symm, hused, (meetsWindow_rawSlot b e w).1 hmeets⟩
    · rintro ⟨e, ho, hused, hmeets⟩
      exact ⟨_, ⟨e, hused, rfl⟩, ho.symm, (meetsWindow_rawSlot b e w).2 hmeets⟩

/-- The rule of a window against a SLOT MAP's used slots is broken when one of them meets it. -/
theorem windowRule_holds_eq_false {slots : Option Bank} :
    (windowRule slots w).holds = false ↔ ∃ m ∈ slots, ∃ e, meetsWindowAt m e w := by
  cases slots with
  | none => simp [windowRule]
  | some m =>
    simp only [windowRule, Option.map_some, Option.getD_some, Bool.not_eq_false', List.any_eq_true, mem_usedSlots,
      Option.mem_def, Option.some.injEq, exists_eq_left']
    constructor
    · rintro ⟨_, ⟨e, hused, rfl⟩, hmeets⟩; exact ⟨e, hused, (meetsWindow_rawSlot m e w).1 hmeets⟩
    · rintro ⟨e, hused, hmeets⟩; exact ⟨_, ⟨e, hused, rfl⟩, (meetsWindow_rawSlot m e w).2 hmeets⟩

theorem window_stationRecord : (stationRecord s).map (·.window) = (activeBank .stationRecord s).map (wordNat · 0) := by
  rw [stationRecord, Option.map_map]
  rfl

/-- R132: the cross test names the word where the slots and the window meet. -/
theorem crossTest_eq_some : crossTest k s = some o ↔ crossMet k s o := by
  cases k with
  | slotMap =>
    rw [crossTest, firstBroken_eq_some]
    simp only [brokenIn_slotWindowRules, window_stationRecord, crossMet]
    cases activeBank .stationRecord s with
    | none => simp
    | some r =>
      simp only [Option.map_some, Option.mem_def, Option.some.injEq, exists_eq_left']
      constructor
      · rintro ⟨⟨e, ho, hmeets⟩, hfirst⟩
        exact ⟨e, ho, hmeets, fun d hd hmet => hfirst (3 * d + 2) (by omega) ⟨d, rfl, hmet⟩⟩
      · rintro ⟨e, ho, hmeets, hfirst⟩
        exact ⟨⟨e, ho, hmeets⟩, fun p hp ⟨d, hd, hmet⟩ => hfirst d (by omega) hmet⟩
  | stationRecord =>
    rw [crossTest, firstBroken_eq_some]
    simp only [brokenIn_cons, brokenIn_nil, or_false, windowRule_holds_eq_false, crossMet]
    simp only [windowRule]
    constructor
    · rintro ⟨⟨ho, hmet⟩, -⟩; exact ⟨ho.symm, hmet⟩
    · rintro ⟨rfl, hmet⟩; exact ⟨⟨rfl, hmet⟩, fun p hp => absurd hp (Nat.not_lt_zero p)⟩
  | armMap x => simp [crossTest, crossMet]
  | channelTable => simp [crossTest, crossMet]
  | zoneTable => simp [crossTest, crossMet]

theorem crossTest_eq_none : crossTest k s = none ↔ ∀ o, ¬ crossMet k s o := by
  simp only [← crossTest_eq_some]
  cases crossTest k s <;> simp

/-! ### TABLE_ACTIVATE -/

theorem ownTableActivate_kindByte (k : TableKind) (s : State) : ownTableActivate (kindByte k) s
    = afterChecks [(decide ((s.tbsOf k).state ≠ .passed), .notReady),
        (configOnly k && decide (s.riu.station ≠ .config), .wrongState), (activationBusy k s, .busy)]
      (fun s => match crossTest k s with
        | some off => ⟨failCross k off s, ⟨.notReady, []⟩⟩
        | none => ⟨activate k s, ⟨.done, [(((activate k s).tbsOf k).generation).setWidth 32]⟩⟩) s := withKind_kindByte k _ (s := s)

/-- Settles O18: the checks in order, then the cross test. -/
theorem tableActivateRefusals : Obligations.TableActivateRefusals := by
  unfold Obligations.TableActivateRefusals
  intro s k h
  have answer {u : State} {r : Reply} (hown : ownTableActivate (kindByte k) s = ⟨u, r⟩) :
      exec (.tableActivate (kindByte k)) s = .next (withReply 0x13 r u) := exec_request (c := .tableActivate) rfl h rfl hown
  have refused {a : Result} (ha : firstRefusal [(decide ((s.tbsOf k).state ≠ .passed), .notReady),
      (configOnly k && decide (s.riu.station ≠ .config), .wrongState), (activationBusy k s, .busy)] = some a) :
      exec (.tableActivate (kindByte k)) s = .next (withReply 0x13 ⟨a, []⟩ s) :=
    answer ((ownTableActivate_kindByte k s).trans (afterChecks_refuse ha))
  refine ⟨fun hnot => refused ?notPassed, fun hpassed hk hrun => refused ?station, fun x hk hpassed hbusy => refused ?arm,
    fun hk hpassed hheld => refused ?zones, fun o hmet hpassed hconfig => answer ?cross⟩
  case notPassed => simp [firstRefusal, hnot]
  case station => rcases hk with rfl | rfl <;> simp [firstRefusal, hpassed, configOnly, hrun]
  case arm =>
    subst hk
    have hb : activationBusy (.armMap x) s = true := by simpa [activationBusy, sessionIdle, or_assoc] using hbusy
    simp [firstRefusal, hpassed, configOnly, hb]
  case zones =>
    subst hk
    have hb : activationBusy .zoneTable s = true := by simpa [activationBusy] using hheld
    simp [firstRefusal, hpassed, configOnly, hb]
  case cross =>
    have hbusy : activationBusy k s = false := by cases k <;> simp [crossMet] at hmet <;> rfl
    rw [ownTableActivate_kindByte, afterChecks_pass (by simp [hpassed, hconfig, hbusy]), crossTest_eq_some.2 hmet]
    rfl

/-- What an activation of an ARM MAP does at once to its arm (R133, R25). -/
theorem activationEffect_armMap {x : Arm} (h : armLatched s x = false) : activationEffect (.armMap x) s
    = (s.onCen x (fun c => { c with history := [], satSeen := false, rangeSeen := false })).onTcu x (fun u =>
      { u with touchDue := if u.touchDue = .resolve then .none else u.touchDue }) := by
  refine (emptyHistory_of_not_latched (s := s.onCen x (fun c => { c with satSeen := false, rangeSeen := false })) h).trans ?_
  cases x <;> rfl

/-- The blocks that an activation reaches beside the Table Store and the Event Unit (R133). -/
structure ActivationReaches (k : TableKind) (s t : State) : Prop where
  thu : t.thu = if k = .channelTable then { s.thu with restart := true } else s.thu
  zones : t.mgd.zones = s.mgd.zones
  mgd : ∀ x, t.mgdOf x = if k = .zoneTable then { s.mgdOf x with inside := List.replicate 8 .unknown } else s.mgdOf x
  cen : ∀ x, t.cenOf x
    = if k = .armMap x then { s.cenOf x with history := [], satSeen := false, rangeSeen := false } else s.cenOf x
  tcuArm : ∀ x, t.tcuOf x = { s.tcuOf x with
    touchDue := if k = .armMap x ∧ (s.tcuOf x).touchDue = .resolve then .none else (s.tcuOf x).touchDue }
  tcu : t.tcu = { s.tcu with arm := t.tcu.arm }
  riu : t.riu = if k = .stationRecord ∧ s.riu.deadline = none then { s.riu with deadline := deadlineFromFrame s } else s.riu

theorem activationEffect_reaches (h : ∀ x, k = .armMap x → armLatched s x = false) :
    ActivationReaches k s (activationEffect k s) := by
  cases k with
  | slotMap => exact ⟨rfl, rfl, fun _ => rfl, fun _ => rfl, fun _ => by simp [activationEffect], rfl, rfl⟩
  | channelTable => exact ⟨rfl, rfl, fun _ => rfl, fun _ => rfl, fun _ => by simp [activationEffect, State.tcuOf], rfl, rfl⟩
  | zoneTable =>
    exact ⟨rfl, rfl, fun x => by cases x <;> rfl, fun _ => rfl, fun _ => by simp [activationEffect, State.tcuOf], rfl, rfl⟩
  | armMap y =>
    rw [activationEffect_armMap (h y rfl)]
    refine ⟨rfl, rfl, fun _ => rfl, fun x => ?_, fun x => ?_, rfl, rfl⟩
    · cases x <;> cases y <;> rfl
    · cases x <;> cases y <;> simp [State.tcuOf, State.onTcu, State.onCen, PerArm.get, PerArm.modify] <;> congr
  | stationRecord =>
    unfold activationEffect
    by_cases hd : s.riu.deadline = none
    · exact ⟨by simp [hd], by simp [hd], by simp [hd, State.mgdOf], by simp [hd, State.cenOf], by simp [hd, State.tcuOf],
        by simp [hd], by simp [hd]⟩
    · exact ⟨by simp [hd], by simp [hd], by simp [hd, State.mgdOf], by simp [hd, State.cenOf], by simp [hd, State.tcuOf],
        by simp [hd], by simp [hd]⟩

/-- Settles O19: the swap, and what it does at once to the blocks that use the kind. -/
theorem tableActivateSwapsBanks : Obligations.TableActivateSwapsBanks := by
  unfold Obligations.TableActivateSwapsBanks
  intro s k h hpassed hconfig hcross harm hzones g
  have hbusy : activationBusy k s = false := by
    cases k with
    | armMap x => simp [activationBusy, sessionIdle, harm x rfl]
    | zoneTable => simpa [activationBusy] using hzones rfl
    | slotMap => rfl
    | channelTable => rfl
    | stationRecord => rfl
  have hstation : (configOnly k && decide (s.riu.station ≠ .config)) = false := by
    cases k <;> simp [configOnly, hconfig]
  let swapped := s.onTbs k (fun r => { r with
    staging := r.active.getD [], state := if r.active.isSome then .passed else .empty, active := some r.staging, generation := g })
  have hswapped : (swapped.tbsOf k).generation = g := by simp [swapped]
  have hactivate : activate k s = post .table (.activated k g) (activationEffect k swapped) := by
    have hswap : s.onTbs k swapBanks = swapped := onTbs_congr rfl
    rw [activate, hswap, hswapped]
  have heffect : Touches [.riu, .cen, .thu, .tcu, .mgd] swapped (activationEffect k swapped) := by simp
  have hgen : ((activate k s).tbsOf k).generation = g := by
    rw [hactivate]
    exact (congrArg (fun t => (t.get k).generation) (heffect.tbs (by decide))).trans hswapped
  have hown : ownTableActivate (kindByte k) s = ⟨activate k s, ⟨.done, [g.setWidth 32]⟩⟩ := by
    rw [ownTableActivate_kindByte, afterChecks_pass, crossTest_eq_none.2 hcross]
    · simp only [hgen]
    · rw [hstation, hbusy]
      simp [hpassed]
  obtain ⟨hthu, hzone, hmgd, hcen, htcuArm, htcu, hriu⟩ :=
    activationEffect_reaches (s := swapped) (k := k) (fun x hk => (harm x hk).2.1)
  refine ⟨activate k s, exec_request (c := .tableActivate) rfl h rfl hown, ?_⟩
  rw [hactivate]
  refine ⟨heffect.tbs (by decide), ?evu, hthu, hzone, hmgd, hcen, htcuArm, htcu, fun hk => ?kept, fun hk hd => ?deadline,
    heffect.pcc (by decide), heffect.rqu (by decide), heffect.pending⟩
  case evu =>
    exact congrArg (fun e : Evu => { e with sources := e.sources.modify (sourceNumber .table) (postTo (.activated k g)) })
      (heffect.evu (by decide))
  case kept => exact hriu.trans (if_neg (fun hboth => hk.elim (absurd hboth.1) (absurd hboth.2)))
  case deadline =>
    subst hk
    exact hriu.trans (if_pos ⟨rfl, hd⟩)

end

end Sys2Proof.Proofs
end

section
/-! The fields of the banks by their words and bits (10.6), and where a bank breaks a content rule (R127, R128). -/
namespace Sys2Proof.Proofs

open Sys2Proof.Machine Sys2Proof.Laws

section
variable {b : Bank} {o : Nat}

/-! ### Words and fields -/

theorem wordNat_lt (b : Bank) (a : Nat) : wordNat b a < 2 ^ 32 := (Memory.read b a).isLt

theorem words8_eq (b : Bank) (a : Nat) : words8 b a
    = wordNat b a + 2 ^ 32 * (wordNat b (a + 1) + 2 ^ 32 * (wordNat b (a + 2) + 2 ^ 32 * (wordNat b (a + 3)
      + 2 ^ 32 * (wordNat b (a + 4) + 2 ^ 32 * (wordNat b (a + 5) + 2 ^ 32 * (wordNat b (a + 6)
        + 2 ^ 32 * wordNat b (a + 7))))))) := by
  simp [words8, List.range, List.range.loop, wordString, wordNat]

/-- The seven fields of a zone record in the bit string of its eight words (10.6). -/
theorem bitField_words8 (b : Bank) (a : Nat) :
    bitField (words8 b a) 0 40 = wordNat b a + 2 ^ 32 * (wordNat b (a + 1) % 2 ^ 8)
      ∧ bitField (words8 b a) 40 40 = wordNat b (a + 1) / 2 ^ 8 + 2 ^ 24 * (wordNat b (a + 2) % 2 ^ 16)
      ∧ bitField (words8 b a) 80 40 = wordNat b (a + 2) / 2 ^ 16 + 2 ^ 16 * (wordNat b (a + 3) % 2 ^ 24)
      ∧ bitField (words8 b a) 120 40 = wordNat b (a + 3) / 2 ^ 24 + 2 ^ 8 * wordNat b (a + 4)
      ∧ bitField (words8 b a) 160 40 = wordNat b (a + 5) + 2 ^ 32 * (wordNat b (a + 6) % 2 ^ 8)
      ∧ bitField (words8 b a) 200 40 = wordNat b (a + 6) / 2 ^ 8 + 2 ^ 24 * (wordNat b (a + 7) % 2 ^ 16)
      ∧ bitField (words8 b a) 240 8 = wordNat b (a + 7) / 2 ^ 16 % 2 ^ 8 := by
  have h0 := wordNat_lt b a
  have h1 := wordNat_lt b (a + 1)
  have h2 := wordNat_lt b (a + 2)
  have h3 := wordNat_lt b (a + 3)
  have h4 := wordNat_lt b (a + 4)
  have h5 := wordNat_lt b (a + 5)
  have h6 := wordNat_lt b (a + 6)
  have h7 := wordNat_lt b (a + 7)
  rw [words8_eq]
  simp only [bitField]
  refine ⟨?_, ?_, ?_, ?_, ?_, ?_, ?_⟩ <;> omega

theorem signCopied8_iff (v : Word) : signCopied 8 v = true ↔ -2 ^ 7 ≤ v.toInt ∧ v.toInt < 2 ^ 7 := by
  rw [signCopied, decide_eq_true_iff, ← BitVec.toInt_inj, BitVec.toInt_ofInt, signedBits, BitVec.toInt_ofNat',
    BitVec.toInt_eq_toNat_bmod]
  have := v.isLt
  simp only [Int.bmod_def]
  omega

theorem signCopied24_iff (v : Word) : signCopied 24 v = true ↔ -2 ^ 23 ≤ v.toInt ∧ v.toInt < 2 ^ 23 := by
  rw [signCopied, decide_eq_true_iff, ← BitVec.toInt_inj, BitVec.toInt_ofInt, signedBits, BitVec.toInt_ofNat',
    BitVec.toInt_eq_toNat_bmod]
  have := v.isLt
  simp only [Int.bmod_def]
  omega

theorem wordInt_eq_one : wordInt b o = 1 ↔ wordNat b o = 1 := by
  have := (Memory.read b o).isLt
  rw [wordInt, wordNat, BitVec.toInt_eq_toNat_cond]
  split <;> omega

theorem wordInt_eq_neg_one : wordInt b o = -1 ↔ wordNat b o = 2 ^ 32 - 1 := by
  have := (Memory.read b o).isLt
  rw [wordInt, wordNat, BitVec.toInt_eq_toNat_cond]
  split <;> omega

/-! ### Single rules -/

theorem inRange_broken {off lo hi : Nat} : (inRange b off lo hi).offset = o ∧ (inRange b off lo hi).holds = false
    ↔ o = off ∧ (wordNat b o < lo ∨ hi < wordNat b o) := by
  simp only [inRange, decide_eq_false_iff_not, not_and_or, not_le]
  exact ⟨fun ⟨h, hb⟩ => h ▸ ⟨rfl, hb⟩, fun ⟨h, hb⟩ => h ▸ ⟨rfl, hb⟩⟩

theorem inRangeInt_broken {off : Nat} {lo hi : Int} :
    (inRangeInt b off lo hi).offset = o ∧ (inRangeInt b off lo hi).holds = false
      ↔ o = off ∧ (wordInt b o < lo ∨ hi < wordInt b o) := by
  simp only [inRangeInt, decide_eq_false_iff_not, not_and_or, not_le]
  exact ⟨fun ⟨h, hb⟩ => h ▸ ⟨rfl, hb⟩, fun ⟨h, hb⟩ => h ▸ ⟨rfl, hb⟩⟩

theorem within40_broken {off : Nat} : (within40 b off).offset = o ∧ (within40 b off).holds = false
    ↔ o = off ∧ ¬ fits40 b o := by
  simp only [within40, ← Bool.not_eq_true, signCopied8_iff]
  exact ⟨fun ⟨h, hb⟩ => h ▸ ⟨rfl, hb⟩, fun ⟨h, hb⟩ => h ▸ ⟨rfl, hb⟩⟩

theorem within24_broken {off : Nat} : (within24 b off).offset = o ∧ (within24 b off).holds = false
    ↔ o = off ∧ ¬ fits24 b o := by
  simp only [within24, ← Bool.not_eq_true, signCopied24_iff]
  exact ⟨fun ⟨h, hb⟩ => h ▸ ⟨rfl, hb⟩, fun ⟨h, hb⟩ => h ▸ ⟨rfl, hb⟩⟩

/-! ### The rules of each kind -/

theorem slotNameOf_isSome {kind which : Nat} : (slotNameOf kind which).isSome = true
    ↔ (kind = 2 ∧ which < 6) ∨ (kind = 4 ∧ which = 0) ∨ ((kind = 1 ∨ kind = 3) ∧ which < 2) := by
  unfold slotNameOf
  split_ifs <;> simp <;> omega

theorem slotNameOf_isSome_eq_false {kind which : Nat} : (slotNameOf kind which).isSome = false
    ↔ ¬ ((kind = 2 ∧ which < 6) ∨ (kind = 4 ∧ which = 0) ∨ ((kind = 1 ∨ kind = 3) ∧ which < 2)) := by
  rw [← slotNameOf_isSome, Bool.not_eq_true]

/-- The rules of a used entry on its own (R127). -/
theorem brokenIn_slotRules (e : Nat) : BrokenIn (slotRules (rawSlot b e)) o
    ↔ (o = 3 * e ∧ 4 < wordNat b (3 * e))
      ∨ (o = 3 * e + 1 ∧ wordNat b (3 * e) ≤ 4 ∧ ¬ ((wordNat b (3 * e) = 2 ∧ wordNat b (3 * e + 1) < 6)
          ∨ (wordNat b (3 * e) = 4 ∧ wordNat b (3 * e + 1) = 0)
          ∨ ((wordNat b (3 * e) = 1 ∨ wordNat b (3 * e) = 3) ∧ wordNat b (3 * e + 1) < 2)))
      ∨ (o = 3 * e + 2 ∧ (wordNat b (3 * e + 2) % 4 ≠ 0
          ∨ 1472 < wordNat b (3 * e + 2) + lengthOf (wordNat b (3 * e)))) := by
  have hrules : slotRules (rawSlot b e) = [⟨3 * e, decide (wordNat b (3 * e) ≤ 4)⟩,
      ⟨3 * e + 1, decide (4 < wordNat b (3 * e)) || (slotNameOf (wordNat b (3 * e)) (wordNat b (3 * e + 1))).isSome⟩,
      ⟨3 * e + 2, decide (wordNat b (3 * e + 2) % 4 = 0)
        && decide (wordNat b (3 * e + 2) + slotLength (wordNat b (3 * e)) ≤ 1472)⟩] := rfl
  simp only [hrules, brokenIn_cons, brokenIn_nil, or_false, slotLength_eq, Bool.or_eq_false_iff, Bool.and_eq_false_iff,
    decide_eq_false_iff_not, not_le, not_lt, slotNameOf_isSome_eq_false, ne_eq, eq_comm (b := o)]

/-- The rules between a used entry and an earlier one (R127). -/
theorem brokenIn_slotPairRules (e d : Nat) : BrokenIn (slotPairRules (rawSlot b e) (rawSlot b d)) o
    ↔ (o = 3 * e + 1 ∧ wordNat b (3 * d) = wordNat b (3 * e) ∧ wordNat b (3 * d + 1) = wordNat b (3 * e + 1))
      ∨ (o = 3 * e + 2 ∧ entryMeets b e (wordNat b (3 * d + 2)) (lengthOf (wordNat b (3 * d)))) := by
  simp only [slotPairRules, rawSlot, brokenIn_cons, brokenIn_nil, or_false, slotLength_eq, sharesByte,
    Bool.not_eq_false', Bool.and_eq_true, decide_eq_true_iff, eq_comm (b := o), eq_comm (a := wordNat b (3 * e)),
    eq_comm (a := wordNat b (3 * e + 1))]

theorem brokenIn_slotMapRules {window : Option Nat} : BrokenIn (slotMapRules b window) o ↔ slotMapBroken b window o := by
  have hwindow (e : Nat) (he : usedEntry b e) : BrokenIn (slotWindowRules window (rawSlot b e)) o
      ↔ o = 3 * e + 2 ∧ ∃ w ∈ window, meetsWindowAt b e w := by
    cases window with
    | none => simp [slotWindowRules]
    | some w =>
      simp only [slotWindowRules, brokenIn_cons, brokenIn_nil, or_false, Bool.not_eq_false', meetsWindow_rawSlot,
        Option.mem_def, Option.some.injEq, exists_eq_left', meetsWindowAt, eq_comm (b := o)]
      exact and_congr_right fun _ => (and_iff_right he).symm
  have hpairs (e : Nat) : (∃ r ∈ (usedSlots b).filter (fun p => decide (p.entry < (rawSlot b e).entry)),
      BrokenIn (slotPairRules (rawSlot b e) r) o) ↔ ∃ d < e, usedEntry b d ∧ BrokenIn (slotPairRules (rawSlot b e) (rawSlot b d)) o := by
    simp only [List.mem_filter, mem_usedSlots, decide_eq_true_iff]
    constructor
    · rintro ⟨_, ⟨⟨d, hd, rfl⟩, hlt⟩, hbroken⟩; exact ⟨d, hlt, hd, hbroken⟩
    · rintro ⟨d, hlt, hd, hbroken⟩; exact ⟨_, ⟨⟨d, hd, rfl⟩, hlt⟩, hbroken⟩
  have hentry : BrokenIn (slotMapRules b window) o ↔ ∃ e, usedEntry b e ∧ (BrokenIn (slotRules (rawSlot b e)) o
      ∨ BrokenIn (slotWindowRules window (rawSlot b e)) o
      ∨ ∃ d < e, usedEntry b d ∧ BrokenIn (slotPairRules (rawSlot b e) (rawSlot b d)) o) := by
    simp only [slotMapRules, brokenIn_flatMap, brokenIn_append, mem_usedSlots, or_assoc]
    constructor
    · rintro ⟨_, ⟨e, he, rfl⟩, hbroken⟩; exact ⟨e, he, by rwa [hpairs] at hbroken⟩
    · rintro ⟨e, he, hbroken⟩; exact ⟨_, ⟨e, he, rfl⟩, by rwa [hpairs]⟩
  rw [hentry]
  refine exists_congr fun e => and_congr_right fun he => ?_
  rw [hwindow e he, brokenIn_slotRules]
  simp only [brokenIn_slotPairRules]
  constructor
  · rintro ((⟨ho, hk⟩ | ⟨ho, hk⟩ | ⟨ho, hk⟩) | ⟨ho, hk⟩ | ⟨d, hd, hused, ⟨ho, hk⟩ | ⟨ho, hk⟩⟩)
    · exact .inl ⟨ho, hk⟩
    · exact .inr (.inl ⟨ho, hk⟩)
    · exact .inr (.inr (.inr ⟨ho, hk.imp_right .inl⟩))
    · exact .inr (.inr (.inr ⟨ho, .inr (.inr (.inl hk))⟩))
    · exact .inr (.inr (.inl ⟨ho, d, hd, hused, hk⟩))
    · exact .inr (.inr (.inr ⟨ho, .inr (.inr (.inr ⟨d, hd, hused, hk⟩))⟩))
  · rintro (⟨ho, hk⟩ | ⟨ho, hk⟩ | ⟨ho, d, hd, hused, hk⟩ | ⟨ho, hk | hk | hk | ⟨d, hd, hused, hk⟩⟩)
    · exact .inl (.inl ⟨ho, hk⟩)
    · exact .inl (.inr (.inl ⟨ho, hk⟩))
    · exact .inr (.inr ⟨d, hd, hused, .inl ⟨ho, hk⟩⟩)
    · exact .inl (.inr (.inr ⟨ho, .inl hk⟩))
    · exact .inl (.inr (.inr ⟨ho, .inr hk⟩))
    · exact .inr (.inl ⟨ho, hk⟩)
    · exact .inr (.inr ⟨d, hd, hused, .inr ⟨ho, hk⟩⟩)

theorem brokenIn_stationRules {slots : Option Bank} : BrokenIn (stationRules b slots) o ↔ stationBroken b slots o := by
  have hplace : (0 = o ∧ (decide (wordNat b 0 % 4 = 0) && decide (wordNat b 0 ≤ 1216)) = false)
      ∨ ((windowRule slots (wordNat b 0)).offset = o ∧ (windowRule slots (wordNat b 0)).holds = false)
      ↔ o = 0 ∧ (wordNat b o % 4 ≠ 0 ∨ 1216 < wordNat b o ∨ ∃ m ∈ slots, ∃ e, meetsWindowAt m e (wordNat b o)) := by
    rw [windowRule_holds_eq_false, Bool.and_eq_false_iff, decide_eq_false_iff_not, decide_eq_false_iff_not, not_le,
      show (windowRule slots (wordNat b 0)).offset = 0 from rfl, ← and_or_left, or_assoc]
    constructor
    · rintro ⟨rfl, hb⟩; exact ⟨rfl, hb⟩
    · rintro ⟨rfl, hb⟩; exact ⟨rfl, hb⟩
  simp only [stationRules, brokenIn_cons, brokenIn_nil, or_false, inRange_broken, Nat.not_lt_zero, false_or, stationBroken]
  rw [← or_assoc, hplace]

theorem brokenIn_zoneRules : BrokenIn ((List.range 8).flatMap (zoneRules b)) o ↔ zoneBroken b o := by
  have henabled (z : Nat) : bitField (words8 b (8 * z)) 240 8 = ((Memory.read b (8 * z + 7)).extractLsb' 16 8).toNat := by
    rw [(bitField_words8 b (8 * z)).2.2.2.2.2.2, wordNat, BitVec.extractLsb'_toNat, Nat.shiftRight_eq_div_pow]
  simp only [brokenIn_flatMap, List.mem_range, zoneBroken, zoneRules, brokenIn_cons, brokenIn_nil, or_false,
    decide_eq_false_iff_not, not_lt, not_le, henabled]
  refine exists_congr fun z => and_congr_right fun _ => ?_
  refine or_congr (and_congr_left' eq_comm) (or_congr (and_congr_left' eq_comm) (or_congr (and_congr_left' eq_comm) ?_))
  exact ⟨fun ⟨h, hb⟩ => h ▸ ⟨rfl, hb⟩, fun ⟨h, hb⟩ => h ▸ ⟨rfl, hb⟩⟩

/-- A rule at a word is broken there, said of the word where it stands. -/
theorem broken_at {off : Nat} {t : Bool} {P : Nat → Prop} (h : t = false ↔ P off) : (off = o ∧ t = false) ↔ o = off ∧ P o := by
  constructor
  · rintro ⟨rfl, hb⟩; exact ⟨rfl, h.1 hb⟩
  · rintro ⟨rfl, hb⟩; exact ⟨rfl, h.2 hb⟩

theorem brokenIn_channelRules : BrokenIn ((List.range 24).flatMap (channelRules b)) o ↔ channelBroken b o := by
  have hrecord (c : Nat) : BrokenIn (channelRules b c) o ↔ wordNat b (8 * c) ≠ 0 ∧
      ((o = 8 * c ∧ 8 < wordNat b o) ∨ (o = 8 * c + 1 ∧ 5 < wordNat b o) ∨ (o = 8 * c + 2 ∧ 3 < wordNat b o)
      ∨ (o = 8 * c + 3 ∧ (wordInt b o < -20000 ∨ 80000 < wordInt b o))
      ∨ (o = 8 * c + 4 ∧ (wordInt b o < -20000 ∨ 80000 < wordInt b o ∨ wordInt b o ≤ wordInt b (8 * c + 3)))
      ∨ (o = 8 * c + 5 ∧ (wordNat b o < 1 ∨ 10000 < wordNat b o)) ∨ (o = 8 * c + 6 ∧ 15 < wordNat b o)
      ∨ (o = 8 * c + 7 ∧ (wordNat b o < 1 ∨ 255 < wordNat b o))) := by
    unfold channelRules
    by_cases h0 : wordNat b (8 * c) = 0
    · simp [h0]
    · have hrole : o = 8 * c ∧ (wordNat b o < 1 ∨ 8 < wordNat b o) ↔ o = 8 * c ∧ 8 < wordNat b o :=
        and_congr_right fun ho => by subst ho; omega
      have horder : (8 * c + 4 = o ∧ decide (wordInt b (8 * c + 3) < wordInt b (8 * c + 4)) = false)
          ↔ o = 8 * c + 4 ∧ wordInt b o ≤ wordInt b (8 * c + 3) :=
        broken_at (P := fun o => wordInt b o ≤ wordInt b (8 * c + 3)) (by rw [decide_eq_false_iff_not, not_lt])
      rw [if_neg h0]
      simp only [brokenIn_cons, brokenIn_nil, or_false, inRange_broken, inRangeInt_broken, horder, hrole,
        Nat.not_lt_zero, false_or, ne_eq, h0, not_false_eq_true, true_and]
      simp only [and_or_left, or_assoc]
  simp only [brokenIn_flatMap, List.mem_range, hrecord]

theorem or_regroup {A B C D E F G H : Prop} : (A ∨ B ∨ C ∨ D ∨ E ∨ F ∨ G ∨ H) ↔ A ∨ C ∨ (B ∨ D ∨ E ∨ G) ∨ F ∨ H := by
  constructor
  · rintro (h | h | h | h | h | h | h | h) <;> simp [h]
  · rintro (h | h | (h | h | h | h) | h | h) <;> simp [h]

theorem brokenIn_axisRules (a : Nat) : BrokenIn (axisRules b a) o
    ↔ (o = 11 * a ∧ (wordNat b o < 1 ∨ 100000 < wordNat b o)) ∨ (o = 11 * a + 3 ∧ 30000 < wordNat b o)
      ∨ ((o = 11 * a + 1 ∨ o = 11 * a + 4 ∨ o = 11 * a + 6 ∨ o = 11 * a + 8) ∧ ¬ fits40 b o)
      ∨ (o = 11 * a + 6 ∧ word40 b (11 * a + 6) ≤ word40 b (11 * a + 4))
      ∨ (o = 11 * a + 10 ∧ wordNat b o ≠ 1 ∧ wordNat b o ≠ 2 ^ 32 - 1) := by
  have horder : (11 * a + 6 = o ∧ decide ((axisRecord b a).lo < (axisRecord b a).hi) = false)
      ↔ o = 11 * a + 6 ∧ word40 b (11 * a + 6) ≤ word40 b (11 * a + 4) := by
    rw [decide_eq_false_iff_not, not_lt, eq_comm]
    rfl
  have hsign : (11 * a + 10 = o ∧ (decide ((axisRecord b a).sign = 1) || decide ((axisRecord b a).sign = -1)) = false)
      ↔ o = 11 * a + 10 ∧ wordNat b o ≠ 1 ∧ wordNat b o ≠ 2 ^ 32 - 1 := by
    refine broken_at (P := fun o => wordNat b o ≠ 1 ∧ wordNat b o ≠ 2 ^ 32 - 1) ?_
    rw [Bool.or_eq_false_iff, decide_eq_false_iff_not, decide_eq_false_iff_not]
    exact and_congr (not_congr wordInt_eq_one) (not_congr wordInt_eq_neg_one)
  simp only [axisRules, brokenIn_cons, brokenIn_nil, or_false, inRange_broken, within40_broken, horder, hsign,
    Nat.not_lt_zero, false_or, or_and_right]
  exact or_regroup

theorem brokenIn_tableRules (i : Nat) : BrokenIn (tableRules b i) o
    ↔ (o = 68 + 69 * i ∧ ¬ fits40 b o)
      ∨ (o = 68 + 69 * i + 2 ∧ wordNat b (68 + 69 * i + 2) ≠ 0
          ∧ (wordNat b (68 + 69 * i + 2) < 1000000 ∨ 200000000 < wordNat b (68 + 69 * i + 2)))
      ∨ (o = 68 + 69 * i + 3 ∧ wordNat b (68 + 69 * i + 3) ≠ 0
          ∧ (wordNat b (68 + 69 * i + 3) < 2 ∨ 65 < wordNat b (68 + 69 * i + 3)))
      ∨ ((wordNat b (68 + 69 * i + 3) = 0 ∨ (2 ≤ wordNat b (68 + 69 * i + 3) ∧ wordNat b (68 + 69 * i + 3) ≤ 65)) ∧
          ∃ n < (if wordNat b (68 + 69 * i + 3) = 0 then 2 else wordNat b (68 + 69 * i + 3)),
            o = 68 + 69 * i + 4 + n ∧ ¬ fits24 b o) := by
  have hcount : (decide (wordNat b (68 + 69 * i + 3) = 0) || (decide (2 ≤ wordNat b (68 + 69 * i + 3))
      && decide (wordNat b (68 + 69 * i + 3) ≤ 65))) = true
      ↔ wordNat b (68 + 69 * i + 3) = 0 ∨ (2 ≤ wordNat b (68 + 69 * i + 3) ∧ wordNat b (68 + 69 * i + 3) ≤ 65) := by
    rw [Bool.or_eq_true, Bool.and_eq_true, decide_eq_true_iff, decide_eq_true_iff, decide_eq_true_iff]
  have hnodes : BrokenIn (if (decide (wordNat b (68 + 69 * i + 3) = 0) || (decide (2 ≤ wordNat b (68 + 69 * i + 3))
      && decide (wordNat b (68 + 69 * i + 3) ≤ 65))) = true
        then (List.range (tableCount b i)).map (fun n => within24 b (68 + 69 * i + 4 + n)) else []) o
      ↔ (wordNat b (68 + 69 * i + 3) = 0 ∨ (2 ≤ wordNat b (68 + 69 * i + 3) ∧ wordNat b (68 + 69 * i + 3) ≤ 65)) ∧
          ∃ n < (if wordNat b (68 + 69 * i + 3) = 0 then 2 else wordNat b (68 + 69 * i + 3)),
            o = 68 + 69 * i + 4 + n ∧ ¬ fits24 b o := by
    by_cases hc : wordNat b (68 + 69 * i + 3) = 0 ∨ (2 ≤ wordNat b (68 + 69 * i + 3) ∧ wordNat b (68 + 69 * i + 3) ≤ 65)
    · rw [if_pos (hcount.2 hc), and_iff_right hc, brokenIn_map]
      simp only [List.mem_range, within24_broken]
      rfl
    · rw [if_neg (fun h => hc (hcount.1 h))]
      simp [hc]
  have hpitch : (68 + 69 * i + 2 = o ∧ (decide (wordNat b (68 + 69 * i + 2) = 0)
      || (decide (1000000 ≤ wordNat b (68 + 69 * i + 2)) && decide (wordNat b (68 + 69 * i + 2) ≤ 200000000))) = false)
      ↔ o = 68 + 69 * i + 2 ∧ wordNat b (68 + 69 * i + 2) ≠ 0
        ∧ (wordNat b (68 + 69 * i + 2) < 1000000 ∨ 200000000 < wordNat b (68 + 69 * i + 2)) := by
    rw [Bool.or_eq_false_iff, Bool.and_eq_false_iff, decide_eq_false_iff_not, decide_eq_false_iff_not, decide_eq_false_iff_not,
      not_le, not_le, eq_comm]
  have hcountRule : (68 + 69 * i + 3 = o ∧ (decide (wordNat b (68 + 69 * i + 3) = 0)
      || (decide (2 ≤ wordNat b (68 + 69 * i + 3)) && decide (wordNat b (68 + 69 * i + 3) ≤ 65))) = false)
      ↔ o = 68 + 69 * i + 3 ∧ wordNat b (68 + 69 * i + 3) ≠ 0
        ∧ (wordNat b (68 + 69 * i + 3) < 2 ∨ 65 < wordNat b (68 + 69 * i + 3)) := by
    rw [Bool.or_eq_false_iff, Bool.and_eq_false_iff, decide_eq_false_iff_not, decide_eq_false_iff_not, decide_eq_false_iff_not,
      not_le, not_le, eq_comm]
  rw [tableRules, brokenIn_append]
  have hhead := or_congr (Iff.refl (o = 68 + 69 * i ∧ ¬ fits40 b o))
    (or_congr hpitch ((or_iff_left (b := BrokenIn [] o) brokenIn_nil).trans hcountRule))
  refine (or_congr (Iff.trans ?_ hhead) hnodes).trans (by simp only [or_assoc])
  rw [brokenIn_cons, brokenIn_cons, brokenIn_cons, within40_broken]
  exact Iff.rfl

/-- R127, R128: the content rules of a kind are broken where the spec says. -/
theorem brokenIn_contentRules {k : TableKind} {s : State} : BrokenIn (contentRules k b s) o ↔ brokenAt k b s o := by
  cases k with
  | slotMap => exact brokenIn_slotMapRules
  | stationRecord => exact brokenIn_stationRules
  | zoneTable => exact brokenIn_zoneRules
  | channelTable => exact brokenIn_channelRules
  | armMap x =>
    simp only [contentRules, rulesAgainst, armMapRules, brokenIn_append, brokenIn_flatMap, List.mem_range, brokenIn_axisRules,
      brokenIn_tableRules, brokenIn_cons, brokenIn_nil, or_false, inRange_broken, within24_broken, Nat.not_lt_zero, false_or,
      brokenAt, armMapBroken, or_and_right, or_assoc]

end

end Sys2Proof.Proofs
end

section
/-! TABLE_CHECK_COMPLETE, the portions of a check, and the words of the banks (O43). -/
namespace Sys2Proof.Proofs

open Sys2Proof.Machine Sys2Proof.Laws

section
variable {s : State} {b : Bank} {k : TableKind}

/-- A word of a bank times its weight (R125). -/
def weighed (b : Bank) (a : Nat) : Word := BitVec.ofNat 32 (a + 1) * Memory.read b a

/-- R125: the sum over the words listed is the sum over all the words of the bank. -/
theorem weightedSum_eq {n : Nat} (hn : Memory.below b n = true) : ∀ {lo : Nat}, Memory.wfFrom lo b = true →
    weightedSum b = ((List.range n).map (weighed b)).sum := by
  induction b with
  | nil =>
    intro lo _
    have hzero : weighed [] = fun _ => (0 : Word) := by funext a; simp [weighed, Memory.read]
    rw [hzero]
    simp [weightedSum]
  | cons c rest ih =>
    obtain ⟨w, v⟩ := c
    intro lo hwf
    simp only [Memory.wfFrom, Bool.and_eq_true, decide_eq_true_eq] at hwf
    obtain ⟨⟨hlo, -⟩, hrest⟩ := hwf
    simp only [Memory.below, List.all_cons, Bool.and_eq_true, decide_eq_true_eq] at hn
    obtain ⟨hw, hn⟩ := hn
    have hsplit : weighed ((w, v) :: rest) = fun a => weighed rest a + if a = w then BitVec.ofNat 32 (w + 1) * v else 0 := by
      funext a
      by_cases ha : a = w
      · subst ha
        simp [weighed, Memory.read, read_below_wfFrom hrest (Nat.lt_succ_self a)]
      · simp [weighed, Memory.read, ha, Ne.symm ha]
    have hterm : ((List.range n).map (fun a => if a = w then BitVec.ofNat 32 (w + 1) * v else 0)).sum
        = BitVec.ofNat 32 (w + 1) * v := by
      rw [List.sum_map_eq_nsmul_single w _ (fun a ha _ => if_neg ha), if_pos rfl,
        List.count_eq_one_of_mem List.nodup_range (List.mem_range.2 hw), one_nsmul]
    rw [weightedSum, hsplit, List.sum_map_add, hterm, ih hn hrest, BitVec.ofNat_mul, BitVec.ofNat_toNat, BitVec.setWidth_eq,
      add_comm]

/-- R125, R126: the result of a check by the sum, and by the first word that breaks a rule. -/
theorem checkBank_cases (e : Word) :
    (weightedSum b ≠ e → checkBank k b e s = .failedSum (weightedSum b))
      ∧ (weightedSum b = e → (∀ o, ¬ brokenAt k b s o) → checkBank k b e s = .passed)
      ∧ (weightedSum b = e → ∀ o, brokenAt k b s o → (∀ p < o, ¬ brokenAt k b s p) → checkBank k b e s = .failedContent o) := by
  simp only [← brokenIn_contentRules]
  refine ⟨fun hsum => if_pos hsum, fun hsum hnone => ?_, fun hsum o hbroken hfirst => ?_⟩
  · rw [checkBank, if_neg (not_not.2 hsum), firstBroken_eq_none.2 hnone]
  · rw [checkBank, if_neg (not_not.2 hsum), firstBroken_eq_some.2 ⟨hbroken, hfirst⟩]

theorem checkComplete_due {e : Word} (h : (s.tbsOf k).state = .checking e 0 false) : checkComplete k s
    = post .table (.check k (checkBank k (s.tbsOf k).staging e s)) (s.onTbs k (fun t =>
      { t with state := if checkBank k (s.tbsOf k).staging e s = .passed then .passed else .failed,
               lastResult := some (checkBank k (s.tbsOf k).staging e s) })) := by
  simp only [checkComplete, h]

/-- R124: what a return pass leaves of a check. -/
theorem checkPortion_eq (t : TableState) : checkPortion t = { t with state := match t.state with
    | .checking e left fresh => .checking e (if fresh then left else left - 128) false
    | other => other } := by
  unfold checkPortion
  cases ht : t.state with
  | checking e left fresh => cases fresh <;> rfl
  | _ => simp [← ht]

theorem roundingOf_eq (w : Nat) : roundingOf w = match w with
    | 1 => .towardZero
    | 2 => .towardPlus
    | 3 => .towardMinus
    | _ => .nearestEven := by
  unfold roundingOf
  split_ifs with h1 h2 h3
  · subst h1; rfl
  · subst h2; rfl
  · subst h3; rfl
  · split <;> simp_all

/-- The zone record's fields by the words that hold them (10.6). -/
theorem zoneRecord_eq (b : Bank) (z : Nat) : zoneRecord b z =
    { lo := ⟨signedBits 40 (wordNat b (8 * z) + 2 ^ 32 * (wordNat b (8 * z + 1) % 2 ^ 8)),
        signedBits 40 (wordNat b (8 * z + 1) / 2 ^ 8 + 2 ^ 24 * (wordNat b (8 * z + 2) % 2 ^ 16)),
        signedBits 40 (wordNat b (8 * z + 2) / 2 ^ 16 + 2 ^ 16 * (wordNat b (8 * z + 3) % 2 ^ 24))⟩,
      hi := ⟨signedBits 40 (wordNat b (8 * z + 3) / 2 ^ 24 + 2 ^ 8 * wordNat b (8 * z + 4)),
        signedBits 40 (wordNat b (8 * z + 5) + 2 ^ 32 * (wordNat b (8 * z + 6) % 2 ^ 8)),
        signedBits 40 (wordNat b (8 * z + 6) / 2 ^ 8 + 2 ^ 24 * (wordNat b (8 * z + 7) % 2 ^ 16))⟩,
      enabled := decide (wordNat b (8 * z + 7) / 2 ^ 16 % 2 ^ 8 = 1) } := by
  obtain ⟨h0, h1, h2, h3, h4, h5, h6⟩ := bitField_words8 b (8 * z)
  simp only [zoneRecord, h0, h1, h2, h3, h4, h5, h6]

/-- Settles O43: the results of a check that is over, the portions, the codes and capacities, and the fields' words. -/
theorem tableCheckCompletes : Obligations.TableCheckCompletes := by
  unfold Obligations.TableCheckCompletes
  refine ⟨fun s k => ⟨fun hquiet => congrArg _ (checkComplete_quiet hquiet), fun e he hok => ?result, ?portions⟩,
    ?codes, fun b => ?fields⟩
  case result =>
    intro bank sum
    simp only [bankOk, Bool.and_eq_true] at hok
    have hsum : weightedSum bank = sum := weightedSum_eq hok.2 hok.1
    obtain ⟨hdiffers, hpassed, hbroken⟩ := checkBank_cases (b := bank) (k := k) (s := s) e
    rw [hsum] at hdiffers hpassed hbroken
    exact ⟨_, congrArg _ (checkComplete_due he), hdiffers, hpassed, hbroken⟩
  case portions =>
    rintro t rfl
    refine ⟨rfl, fun k => ?_⟩
    exact (get_kind_all s.tbs k checkPortion).trans (checkPortion_eq _)
  case codes =>
    refine ⟨⟨rfl, rfl, rfl⟩, ⟨rfl, rfl, rfl⟩, ⟨rfl, rfl, rfl⟩, ⟨rfl, rfl, rfl⟩, ⟨rfl, rfl, rfl⟩, ⟨rfl, rfl, rfl⟩,
      fun code hcode => kindOf_eq_none (hcode.imp_right fun h => h)⟩
  case fields =>
    intro w field40 field24
    refine ⟨?station, fun z _ => zoneRecord_eq b z, fun a _ => rfl, rfl, rfl, rfl, rfl, decide_eq_true_iff, rfl, rfl, rfl, rfl, rfl,
      fun i _ => ⟨rfl, rfl, rfl, fun n _ => rfl⟩⟩
    rw [stationRecordOf, roundingOf_eq]
    rfl

end

end Sys2Proof.Proofs
end

section
/-! Runs of bytes in a buffer, and POINT_DRAIN (O36). -/
namespace Sys2Proof.Proofs

open Sys2Proof.Machine Sys2Proof.Laws

/-- A buffer holds a run of bytes from an offset on. -/
def HoldsAt (m : Memory 8) : Nat → List Byte → Prop
  | _, [] => True
  | off, v :: vs => Memory.read m off = v ∧ HoldsAt m (off + 1) vs

section
variable {m : Memory 8} {off n : Nat} {v : Byte} {vs ws : List Byte}

@[simp] theorem holdsAt_nil : HoldsAt m off [] := trivial

@[simp] theorem holdsAt_cons : HoldsAt m off (v :: vs) ↔ Memory.read m off = v ∧ HoldsAt m (off + 1) vs := Iff.rfl

@[simp] theorem holdsAt_append : HoldsAt m off (vs ++ ws) ↔ HoldsAt m off vs ∧ HoldsAt m (off + vs.length) ws := by
  induction vs generalizing off with
  | nil => simp
  | cons v vs ih => simp [ih, and_assoc, Nat.add_assoc, Nat.add_comm 1]

theorem holdsAt_iff : HoldsAt m off vs ↔ ∀ i < vs.length, Memory.read m (off + i) = vs.getD i 0 := by
  induction vs generalizing off with
  | nil => simp
  | cons v vs ih =>
    rw [holdsAt_cons, ih]
    constructor
    · rintro ⟨h0, hrest⟩ i hi
      cases i with
      | zero => simpa using h0
      | succ i => simpa [Nat.add_assoc, Nat.add_comm 1] using hrest i (by simpa using hi)
    · intro h
      refine ⟨by simpa using h 0 (by simp), fun i hi => ?_⟩
      simpa [Nat.add_assoc, Nat.add_comm 1] using h (i + 1) (by simpa using hi)

/-- A run just written stands where it was written. -/
theorem holdsAt_writeAll (hm : Memory.wf m = true) : HoldsAt (Memory.writeAll m off vs) off vs := by
  rw [holdsAt_iff]
  intro i hi
  rw [read_writeAll_same hm hi]
  simp [hi]

/-- A write elsewhere keeps a run. -/
theorem HoldsAt.writeAll {o : Nat} (h : HoldsAt m off vs) (hapart : o + ws.length ≤ off ∨ off + vs.length ≤ o) :
    HoldsAt (Memory.writeAll m o ws) off vs := by
  rw [holdsAt_iff] at h ⊢
  intro i hi
  rw [read_writeAll_other (by omega), h i hi]

@[simp] theorem length_leBytes (n v : Nat) : (leBytes n v).length = n := by
  induction n generalizing v with
  | zero => rfl
  | succ n ih => simp [leBytes, ih]

@[simp] theorem length_leBytesInt (n : Nat) (v : Int) : (leBytesInt n v).length = n := length_leBytes _ _

/-- The number that its bytes, least significant first, give back. -/
theorem readLE_of_holdsAt {v : Nat} (h : HoldsAt m off (leBytes n v)) : Memory.readLE m off n = v % 256 ^ n := by
  induction n generalizing off v with
  | zero => simp [Memory.readLE, Nat.mod_one]
  | succ n ih =>
    obtain ⟨h0, hrest⟩ := h
    have hpow : 256 ^ (n + 1) = 256 * 256 ^ n := Nat.pow_succ'
    rw [Memory.readLE, h0, ih hrest, BitVec.toNat_ofNat, hpow, Nat.mod_mul]

theorem readLE_bitVec {w : Nat} {x : BitVec w} (h : HoldsAt m off (leBytes n x.toNat)) (hw : 2 ^ w ≤ 256 ^ n) :
    Memory.readLE m off n = x.toNat := by
  rw [readLE_of_holdsAt h, Nat.mod_eq_of_lt (x.isLt.trans_le hw)]

theorem intAt_of_holdsAt {v : Int} (h : HoldsAt m off (leBytesInt 4 v)) : intAt m off = (BitVec.ofInt 32 v).toInt := by
  have hread : Memory.readLE m off 4 = (BitVec.ofInt 32 v).toNat := readLE_bitVec h (by decide)
  rw [intAt, hread, BitVec.ofNat_toNat, BitVec.setWidth_eq]

end

/-! ### POINT_DRAIN -/

section
variable {s : State} {m : Memory 8} {w i : Nat}

theorem length_pointBytes (p : Point) : (pointBytes p).length = 32 := by
  cases h : p.tip <;> simp [pointBytes, tipBytes, h]

/-- The fields of a point record where its bytes stand (10.3). -/
theorem point_of_holdsAt {o : Nat} {p : Point} (h : HoldsAt m o (pointBytes p)) :
    Memory.read m o = armByte p.arm ∧ Memory.read m (o + 1) = BitVec.ofNat 8 (p.tip.getD ⟨0, 0⟩).id
      ∧ Memory.read m (o + 2) = (p.tip.getD ⟨0, 0⟩).revision ∧ Memory.read m (o + 3) = p.feature
      ∧ Memory.readLE m (o + 4) 2 = p.seq.toNat ∧ Memory.readLE m (o + 6) 2 = p.epoch.toNat
      ∧ Memory.readLE m (o + 8) 2 = p.generation.toNat ∧ Memory.readLE m (o + 10) 2 = p.flags.toNat
      ∧ Memory.readLE m (o + 12) 8 = p.trg.toNat
      ∧ intAt m (o + 20) = (BitVec.ofInt 32 p.pos.x).toInt
      ∧ intAt m (o + 24) = (BitVec.ofInt 32 p.pos.y).toInt
      ∧ intAt m (o + 28) = (BitVec.ofInt 32 p.pos.z).toInt := by
  have htip : tipBytes p.tip = [BitVec.ofNat 8 (p.tip.getD ⟨0, 0⟩).id, (p.tip.getD ⟨0, 0⟩).revision] := by
    cases p.tip <;> rfl
  simp only [pointBytes, htip, holdsAt_append, holdsAt_cons, holdsAt_nil, List.length_append, List.length_cons, List.length_nil,
    length_leBytes, length_leBytesInt, and_true, Nat.add_assoc, Nat.reduceAdd] at h
  obtain ⟨⟨⟨⟨⟨⟨⟨⟨⟨⟨harm, hid, hrevision⟩, hfeature⟩, hseq⟩, hepoch⟩, hgeneration⟩, hflags⟩, htrg⟩, hx⟩, hy⟩, hz⟩ := h
  exact ⟨harm, hid, hrevision, hfeature, readLE_bitVec hseq (by decide), readLE_bitVec hepoch (by decide), readLE_bitVec hgeneration (by decide),
    readLE_bitVec hflags (by decide), readLE_bitVec htrg (by decide), intAt_of_holdsAt hx, intAt_of_holdsAt hy, intAt_of_holdsAt hz⟩

/-- The payload after point records have been written into consecutive slots from slot `i` on. -/
def withPoints (w : Nat) : Nat → List Point → Memory 8 → Memory 8
  | _, [], m => m
  | i, p :: ps, m => withPoints w (i + 1) ps (Memory.writeAll m (w + windowPoint i) (pointBytes p))

theorem writePoints_none {ps : List Point} (h : s.riu.sent1 = none) : writePoints w i ps s = s := by
  induction ps generalizing i s with
  | nil => rfl
  | cons p ps ih =>
    have hsame (bytes : List Byte) (off : Nat) : writeReturn off bytes s = s := by
      rw [writeReturn, h]
      exact congrArg (fun l => { s with riu := { s.riu with sent1 := l } }) h.symm
    rw [writePoints, hsame, ih h]

theorem writePoints_some {ps : List Point} {f : Sent} (h : s.riu.sent1 = some f) : writePoints w i ps s = { s with
    riu := { s.riu with sent1 := some { f with frame := { f.frame with payload := withPoints w i ps f.frame.payload } } } } := by
  induction ps generalizing i s f with
  | nil => simp [writePoints, withPoints, ← h]
  | cons p ps ih =>
    have hnext : (writeReturn (w + windowPoint i) (pointBytes p) s).riu.sent1
        = some { f with frame := writePayload (w + windowPoint i) (pointBytes p) f.frame } := by simp [writeReturn, h]
    rw [writePoints, ih hnext]
    rfl

theorem read_withPoints_other {ps : List Point} {a : Nat} (h : a < w + 176 + 32 * i ∨ w + 176 + 32 * (i + ps.length) ≤ a) :
    Memory.read (withPoints w i ps m) a = Memory.read m a := by
  induction ps generalizing i m with
  | nil => rfl
  | cons p ps ih =>
    simp only [List.length_cons] at h
    rw [withPoints, ih (by omega), read_writeAll_other (by rw [length_pointBytes, windowPoint]; omega)]

theorem holdsAt_withPoints {ps : List Point} {j : Nat} {p : Point} (hm : Memory.wf m = true) (hp : ps[j]? = some p) :
    HoldsAt (withPoints w i ps m) (w + 176 + 32 * (i + j)) (pointBytes p) := by
  induction ps generalizing i j m with
  | nil => simp at hp
  | cons q ps ih =>
    rw [withPoints]
    cases j with
    | zero =>
      obtain rfl : q = p := by simpa using hp
      have hwritten : HoldsAt (Memory.writeAll m (w + windowPoint i) (pointBytes q)) (w + 176 + 32 * (i + 0)) (pointBytes q) := by
        rw [windowPoint, ← Nat.add_assoc]
        exact holdsAt_writeAll hm
      rw [holdsAt_iff] at hwritten ⊢
      intro k hk
      rw [read_withPoints_other (by rw [length_pointBytes] at hk; omega), hwritten k hk]
    | succ j =>
      have hrest := ih (i := i + 1) (wf_writeAll (a := w + windowPoint i) (vs := pointBytes q) hm) (by simpa using hp)
      rwa [show i + 1 + j = i + (j + 1) by omega] at hrest

/-- Settles O36: the records that leave, and where their bytes stand in the frame sent at P1. -/
theorem pointDrainEmptiesTheHead : Obligations.PointDrainEmptiesTheHead := by
  unfold Obligations.PointDrainEmptiesTheHead
  intro s
  refine ⟨fun hnone => congrArg _ (drainPoints_quiet hnone), ?_⟩
  intro w hdue n drained
  have hdrain : exec .pointDrain s = .next { writePoints w 0 (s.tcu.queue.take n) s with
      tcu := { (writePoints w 0 (s.tcu.queue.take n) s).tcu with queue := s.tcu.queue.drop n, drainDue := none } } := by
    refine congrArg Host.Outcome.next ?_
    simp only [drainPoints, hdue]
    rfl
  refine ⟨fun hnone => ?_, fun f hsent hwf => ⟨withPoints w 0 (s.tcu.queue.take n) f.frame.payload, ?_, fun i hi p hp => ?_,
    fun a ha => ?_⟩⟩
  · rw [hdrain, writePoints_none hnone]
  · rw [hdrain, writePoints_some hsent]
  · have hheld := holdsAt_withPoints (w := w) (i := 0) hwf (show (s.tcu.queue.take n)[i]? = some p by
      rw [List.getElem?_take_of_lt hi]; exact hp)
    rw [Nat.zero_add] at hheld
    exact point_of_holdsAt hheld
  · exact read_withPoints_other (by rw [List.length_take, Nat.zero_add, Nat.mul_zero]; exact ha)

end

end Sys2Proof.Proofs
end

section
/-! How a touch ends: the point built, the queue, the events and the causes (O37, O38). -/
namespace Sys2Proof.Proofs

open Sys2Proof.Machine Sys2Proof.Laws

/-! ### Numbers from bits -/

theorem testBit_bitsNat (bs : List Bool) (i : Nat) : (bitsNat bs).testBit i = bs.getD i false := by
  induction bs generalizing i with
  | nil => simp [bitsNat]
  | cons b bs ih =>
    have hbit : bitsNat (b :: bs) = Nat.bit b (bitsNat bs) := by cases b <;> simp [bitsNat, Nat.bit, Nat.add_comm]
    rw [hbit]
    cases i with
    | zero => simp
    | succ i => rw [Nat.testBit_bit_succ, ih]; simp

theorem getLsbD_ofNat_bitsNat {w i : Nat} {bs : List Bool} (hi : i < w) :
    (BitVec.ofNat w (bitsNat bs)).getLsbD i = bs.getD i false := by
  rw [BitVec.getLsbD_ofNat, testBit_bitsNat, decide_eq_true hi, Bool.true_and]

section
variable {s u v : State} {x : Arm} {l : Latch}

/-! ### What a posting and a masked cause come from -/

theorem whenDo_post_evu {c : Bool} {src : EventSource} {d : Detail} (h : u.evu = v.evu) :
    (whenDo c (post src d) u).evu = (whenDo c (post src d) v).evu := by
  cases c
  · exact h
  · exact congrArg (fun e : Evu => { e with sources := e.sources.modify (sourceNumber src) (postTo d) }) h

theorem whenDo_post_eq (c : Bool) (src : EventSource) (d : Detail) :
    whenDo c (post src d) s = { s with evu := (whenDo c (post src d) s).evu } := by cases c <;> rfl

theorem whenDo_raiseMasked_mgd {c : Bool} {m : MaskBit} {k : Cause} (h : u.mgd = v.mgd) (hb : armBank x u = armBank x v) :
    (whenDo c (raiseMasked x m k) u).mgd = (whenDo c (raiseMasked x m k) v).mgd := by
  have hmask : maskSet x m u = maskSet x m v := by simp only [maskSet, hb]
  cases c
  · exact h
  · simp only [whenDo, if_true, raiseMasked, hmask]
    split
    · exact congrArg (fun g : Mgd => { g with arm := g.arm.modify x (fun g => { g with causes := addCause g.causes k }) }) h
    · exact h

theorem whenDo_raiseMasked_eq (c : Bool) (m : MaskBit) (k : Cause) :
    whenDo c (raiseMasked x m k) s = { s with mgd := (whenDo c (raiseMasked x m k) s).mgd } := by
  cases c
  · rfl
  · simp only [whenDo, if_true, raiseMasked]
    split <;> rfl

/-- R62: the onset of a point's saturation. -/
theorem numericOnset_zero (sat : BitVec 3) : numericOnset x sat 0 s = { s with
    cen := s.cen.modify x (fun c => { c with satSeen := c.satSeen || decide (sat ≠ 0) })
    mgd := (whenDo (decide (sat ≠ 0) && !(s.cenOf x).satSeen) (raiseMasked x .numeric .numeric) s).mgd
    evu := (whenDo (decide (sat ≠ 0) && !(s.cenOf x).satSeen) (post .numeric (.numeric x true false sat 0)) s).evu } := by
  let onset := decide (sat ≠ 0) && !(s.cenOf x).satSeen
  let noted := s.onCen x (fun c => { c with satSeen := c.satSeen || onset })
  have hform : numericOnset x sat 0 s
      = whenDo onset (raiseMasked x .numeric .numeric) (whenDo onset (post .numeric (.numeric x true false sat 0)) noted) := by
    have hbeyond : (decide ((0 : BitVec 3) ≠ 0) && !(s.cenOf x).rangeSeen) = false := by simp
    simp only [numericOnset, hbeyond, Bool.or_false, Bool.false_eq_true, if_false]
    cases honset : onset
    · simp only [onset] at honset
      simp only [honset, whenDo, noted, onset, Bool.false_eq_true, if_false]
    · simp only [onset] at honset
      simp only [honset, whenDo, noted, onset, if_true, Bool.false_eq_true, if_false]
  have hcen : noted.cen = s.cen.modify x (fun c => { c with satSeen := c.satSeen || decide (sat ≠ 0) }) := by
    have hseen : ((s.cen.get x).satSeen || onset) = ((s.cen.get x).satSeen || decide (sat ≠ 0)) := by
      simp only [onset, State.cenOf]
      cases (s.cen.get x).satSeen <;> simp
    refine modify_congr (f := fun c : CenArm => { c with satSeen := c.satSeen || onset }) ?_
    exact congrArg (fun b => { s.cen.get x with satSeen := b }) hseen
  have hbank : armBank x (whenDo onset (post .numeric (.numeric x true false sat 0)) noted) = armBank x s := by
    rw [whenDo_post_eq]
    cases x <;> rfl
  have hevu : (whenDo onset (post .numeric (.numeric x true false sat 0)) noted).evu
      = (whenDo onset (post .numeric (.numeric x true false sat 0)) s).evu := whenDo_post_evu rfl
  have hmgd : (whenDo onset (raiseMasked x .numeric .numeric)
      (whenDo onset (post .numeric (.numeric x true false sat 0)) noted)).mgd
      = (whenDo onset (raiseMasked x .numeric .numeric) s).mgd :=
    whenDo_raiseMasked_mgd (by rw [whenDo_post_eq]; rfl) hbank
  rw [hform, whenDo_raiseMasked_eq, hmgd, whenDo_post_eq (s := noted), hevu, ← hcen]
  rfl

/-- R66: a point joins the queue, or is dropped at a full one. -/
theorem joinQueue_eq (p : Point) : joinQueue p s = { s with
    tcu := { s.tcu with queue := if s.tcu.queue.length < 32 then s.tcu.queue ++ [p] else s.tcu.queue }
    mgd := (whenDo (decide (32 ≤ s.tcu.queue.length)) (raiseMasked p.arm .pointLost .pointLost) s).mgd
    evu := (whenDo (decide (32 ≤ s.tcu.queue.length)) (post .pointLost (.pointLost p.arm p.seq .queueFull)) s).evu } := by
  have hcapacity : Config.queueCapacity = 32 := rfl
  rw [joinQueue, hcapacity]
  by_cases h : s.tcu.queue.length < 32
  · rw [if_pos h, if_pos h, decide_eq_false (Nat.not_le.2 h)]
    rfl
  · rw [if_neg h, if_neg h, decide_eq_true (Nat.le_of_not_lt h), losePoint]
    have heq := whenDo_raiseMasked_eq (s := post .pointLost (.pointLost p.arm p.seq .queueFull) s) (x := p.arm) true .pointLost .pointLost
    have hmgd := whenDo_raiseMasked_mgd (u := post .pointLost (.pointLost p.arm p.seq .queueFull) s) (v := s) (x := p.arm)
      (c := true) (m := .pointLost) (k := .pointLost) rfl rfl
    rw [hmgd] at heq
    exact heq

/-- The flags of the point of a touch (R56 to R64), bit by bit. -/
theorem buildPoint_flags (t : Touch) :
    let f := (buildPoint s x t).flags
    f.getLsbD 0 = t.unbracketed ∧ f.getLsbD 1 = t.gap ∧ f.getLsbD 2 = t.late ∧ f.getLsbD 3 = t.latch.double
      ∧ f.getLsbD 4 = touchFlag t flagBeyond
      ∧ f.getLsbD 5 = decide (saturatedAxes (roundingMode s) (pointPosition s x t.position) ≠ 0)
      ∧ f.getLsbD 6 = (touchFlag t flagStale || (s.thuOf x).applied.workpiece.stale || (s.thuOf x).applied.air.stale)
      ∧ f.getLsbD 7 = (touchFlag t flagClamp || (s.thuOf x).applied.workpiece.clamp || (s.thuOf x).applied.air.clamp)
      ∧ f.getLsbD 8 = requalify s x t.newest.tip ∧ f.getLsbD 9 = !s.tcu.workpiece.valid := by
  refine ⟨?_, ?_, ?_, ?_, ?_, ?_, ?_, ?_, ?_, ?_⟩ <;> exact getLsbD_ofNat_bitsNat (by decide)

theorem requalify_iff {tip : Option TipRef} : requalify s x tip = true ↔ ∃ r ∈ tip, stationField (·.band) s ≠ 0
    ∧ (stationField (·.band) s : Int) < |(s.thuOf x).applied.air.value - (tipOf s r.id).airTemp| := by
  cases tip with
  | none => simp [requalify]
  | some r =>
    simp only [requalify, Bool.and_eq_true, decide_eq_true_iff, Option.mem_def, Option.some.injEq, exists_eq_left']
    rw [Int.abs_eq_natAbs, Nat.cast_lt]

/-- R59, R52: the trigger after a touch of an arm with a bank. -/
theorem endTouch_eq {b : Bank} (hb : armBank x s = some b) : endTouch x l s = s.onTcu x (fun u =>
    { u with trigger := if l.disarmAfter then .disarmed else .rearm (wordNat b 38), touchDue := .none }) := by
  simp only [endTouch, hb]
  rfl

/-- R60 to R66: what the end of a touch leaves. -/
theorem finishTouch_ends (t : Touch) (used : List HistoryEntry) (hused : ∀ f, touchFlag t f = used.any (fun e => f e.flags)) :
    TouchEnds s (finishTouch x t s) x t.latch t.position t.newest used t.unbracketed t.gap t.late := by
  have hdropped : (buildPoint s x t).arm = x ∧ (buildPoint s x t).seq = t.latch.seq := ⟨rfl, rfl⟩
  have hend : finishTouch x t s = endTouch x t.latch (joinQueue (buildPoint s x t)
      (numericOnset x (saturatedAxes (roundingMode s) (pointPosition s x t.position)) 0 s)) := rfl
  rw [hend, numericOnset_zero, joinQueue_eq]
  obtain ⟨h0, h1, h2, h3, h4, h5, h6, h7, h8, h9⟩ := buildPoint_flags (s := s) (x := x) t
  refine ⟨fun hroom => ⟨buildPoint s x t, if_pos hroom, rfl, rfl, rfl, rfl, rfl, rfl, rfl, rfl, h0, h1, h2, h3, ?beyond, h5,
    ?stale, ?clamp, h8 ▸ requalify_iff, h9⟩, fun hfull => if_neg (Nat.not_lt.2 hfull), ?events, rfl, ?held, fun b hb => ?ended, rfl⟩
  case beyond => rw [h4, hused]; rfl
  case stale => rw [h6, hused]; rfl
  case clamp => rw [h7, hused]; rfl
  case events => exact whenDo_post_evu rfl
  case held => exact whenDo_raiseMasked_mgd rfl (by rw [whenDo_raiseMasked_eq (s := s)]; cases x <;> rfl)
  case ended =>
    rw [endTouch_eq (b := b) ((show armBank x _ = armBank x s by cases x <;> rfl).trans hb)]
    rfl

/-! ### TOUCH_RESOLVE -/

theorem bracketEntry_eq_some {newer oldest : List HistoryEntry} {a b : HistoryEntry} {contact : Int}
    (ha : (a.capture.toNat : Int) ≤ contact) (hnewer : ∀ e ∈ newer, ¬ (e.capture.toNat : Int) ≤ contact) :
    bracketEntry ((oldest ++ a :: newer) ++ [b]) contact = some a := by
  have hnone : newer.reverse.find? (fun e => decide ((e.capture.toNat : Int) ≤ contact)) = none := by
    rw [List.find?_eq_none]
    intro e he
    simpa using hnewer e (List.mem_reverse.1 he)
  rw [bracketEntry, List.dropLast_concat, List.reverse_append, List.reverse_cons, List.append_assoc, List.find?_append, hnone]
  simp [ha]

theorem bracketEntry_eq_none {older : List HistoryEntry} {b : HistoryEntry} {contact : Int}
    (h : ∀ e ∈ older, ¬ (e.capture.toNat : Int) ≤ contact) : bracketEntry (older ++ [b]) contact = none := by
  rw [bracketEntry, List.dropLast_concat, List.find?_eq_none]
  intro e he
  simpa using h e (List.mem_reverse.1 he)

/-- Settles O37: bracketed by the newest earlier entry at or before the contact time, or unbracketed. -/
theorem touchResolveBuildsThePoint : Obligations.TouchResolveBuildsThePoint := by
  unfold Obligations.TouchResolveBuildsThePoint
  intro s x
  refine ⟨fun hnot => congrArg Host.Outcome.next ?quiet, fun l b older hdue hl hhistory => ?_⟩
  case quiet =>
    unfold resolveTouch
    split
    · next h _ _ => exact absurd h hnot
    · rfl
  have hresolve : exec (.touchResolve x) s = .next (finishTouch x (touchFrom s l (older ++ [b]) b) s) := by
    refine congrArg Host.Outcome.next ?_
    have hlast : (s.cenOf x).history.getLast? = some b := by rw [hhistory]; simp
    rw [hhistory] at hlast
    simp only [resolveTouch, hdue, hl, hhistory, hlast]
  intro before
  refine ⟨fun newer a oldest hsplit ha hnewer => ?bracketed, fun hnone => ?unbracketed⟩
  case bracketed =>
    intro ta tb along
    have hgap : decide ((2 * cyclePeriodNs s : Nat) < tb - ta)
        = decide (2 * (1000 * stationField (·.period) s : Nat) < tb - ta) :=
      decide_eq_decide.2 (by rw [cyclePeriodNs, Nat.cast_mul, Nat.cast_ofNat])
    have htouch : touchFrom s l (older ++ [b]) b = ⟨l, b, some a, ⟨along a.t.x b.t.x, along a.t.y b.t.y, along a.t.z b.t.z⟩,
        false, decide (2 * (1000 * stationField (·.period) s : Nat) < tb - ta), false⟩ := by
      rw [← hgap, hsplit]
      simp only [touchFrom, bracketEntry_eq_some ha hnewer]
      rfl
    rw [hresolve, htouch]
    exact ⟨_, rfl, finishTouch_ends ⟨l, b, some a, _, false, _, false⟩ [a, b] (fun f => by simp [touchFlag, Bool.or_comm])⟩
  case unbracketed =>
    have htouch : touchFrom s l (older ++ [b]) b = ⟨l, b, none, b.t, true, false, false⟩ := by
      simp only [touchFrom, bracketEntry_eq_none hnone]
    rw [hresolve, htouch]
    exact ⟨_, rfl, finishTouch_ends ⟨l, b, none, b.t, true, false, false⟩ [b] (fun f => by simp [touchFlag])⟩

/-! ### LATE_RESOLUTION, and the latches on a return pass -/

theorem lateTouch_entry {e : HistoryEntry} (hl : triggerOf s x = .latched l) (he : (s.cenOf x).history.getLast? = some e) :
    lateTouch x s = finishTouch x ⟨l, e, none, e.t, false, false, true⟩ s := by
  simp only [lateTouch, hl, he]

/-- R57, R66: with an empty history the point is lost. -/
theorem lateTouch_nobody {m : Bank} (hl : triggerOf s x = .latched l) (hm : armBank x s = some m)
    (hempty : (s.cenOf x).history = []) : lateTouch x s
      = (if (Memory.read m 39).getLsbD 3 then raise x .pointLost (post .pointLost (.pointLost x l.seq .noPosition) s)
          else post .pointLost (.pointLost x l.seq .noPosition) s).onTcu x (fun u =>
        { u with trigger := if l.disarmAfter then .disarmed else .rearm (wordNat m 38), touchDue := .none }) := by
  have hmask : maskSet x .pointLost (post .pointLost (.pointLost x l.seq .noPosition) s) = (Memory.read m 39).getLsbD 3 := by
    simp only [maskSet, show armBank x (post .pointLost (.pointLost x l.seq .noPosition) s) = some m from hm]
    rfl
  have hlost : losePoint x l.seq .noPosition s
      = if (Memory.read m 39).getLsbD 3 then raise x .pointLost (post .pointLost (.pointLost x l.seq .noPosition) s)
        else post .pointLost (.pointLost x l.seq .noPosition) s := by
    rw [losePoint, raiseMasked, hmask]
  have hbank : armBank x (losePoint x l.seq .noPosition s) = some m := by
    rw [hlost]
    split <;> exact hm
  simp only [lateTouch, hl, hempty, List.getLast?_nil]
  rw [endTouch_eq hbank, hlost]

/-- R51, R57: a pass that leaves a trigger LATCHED makes it one pass older. -/
theorem ageLatch_latched (hl : triggerOf s x = .latched l) : ageLatch x s = s.onTcu x (fun u =>
    { u with trigger := .latched { l with age := l.age + 1 },
             touchDue := if stationField (·.latchLimit) s ≤ l.age + 1 then .late else .none }) := by
  simp only [ageLatch, hl]

theorem ageLatch_of_not_latched (h : armLatched s x = false) : ageLatch x s = s.onTcu x (fun u => { u with touchDue := .none }) := by
  unfold ageLatch
  split
  · next l hl => simp [armLatched, isLatched, hl] at h
  · rfl

/-- Settles O38: a late point or a loss; and what a pass makes of a latch. -/
theorem lateResolutionResolvesOrLoses : Obligations.LateResolutionResolvesOrLoses := by
  unfold Obligations.LateResolutionResolvesOrLoses
  intro s x
  refine ⟨fun hnot => congrArg Host.Outcome.next (if_neg hnot), fun l hl hdue => ?late, fun capture => ?pass⟩
  case late =>
    have hexec : exec (.lateResolution x) s = .next (lateTouch x s) := congrArg Host.Outcome.next (if_pos hdue)
    refine ⟨fun e he => ?_, fun m hm hempty => ?_⟩
    · rw [hexec, lateTouch_entry hl he]
      exact ⟨_, rfl, finishTouch_ends ⟨l, e, none, e.t, false, false, true⟩ [e] (fun f => by simp [touchFlag])⟩
    · rw [hexec, lateTouch_nobody hl hm hempty]
  case pass =>
    refine ⟨fun l c hl hc hle => ?_, fun l hl hlate => ?_, fun hnot => ?_⟩
    · subst hc
      simp only [resolutionStep, hl]
      exact if_pos hle
    · have hage : resolutionStep x capture s = ageLatch x s := by
        unfold resolutionStep
        split
        · next l' c hl' =>
          obtain rfl : l = l' := by simpa using hl.symm.trans hl'
          exact if_neg (not_le.2 (hlate c rfl))
        · rfl
      exact hage.trans (ageLatch_latched hl)
    · have hage : resolutionStep x capture s = ageLatch x s := by
        unfold resolutionStep
        split
        · next l c hl => simp [armLatched, isLatched, hl] at hnot
        · rfl
      exact hage.trans (ageLatch_of_not_latched hnot)

end

end Sys2Proof.Proofs
end

section
/-! Trigger edges (O44), rounding and saturation (O45). -/
namespace Sys2Proof.Proofs

open Sys2Proof.Machine Sys2Proof.Laws

section
variable {s : State} {x : Arm} {b : Bank} {rising : Bool}

/-! ### TRIGGER_EDGE -/

theorem polarityRising_eq : polarityRising b = rising ↔ (rising = true ↔ Memory.read b 37 = 0) := by
  have hzero : polarityRising b = true ↔ Memory.read b 37 = 0 := by
    rw [polarityRising, decide_eq_true_iff, wordNat, ← BitVec.toNat_inj]
    rfl
  rw [← hzero]
  cases polarityRising b <;> cases rising <;> simp

theorem edgeActs_iff : edgeActs s x rising = true
    ↔ s.riu.station ≠ .unaddressed ∧ ∃ b, armBank x s = some b ∧ (rising = true ↔ Memory.read b 37 = 0) := by
  rw [edgeActs, Bool.and_eq_true, decide_eq_true_iff]
  refine and_congr_right fun _ => ?_
  cases armBank x s with
  | none => simp
  | some b => simp only [decide_eq_true_iff, polarityRising_eq, Option.some.injEq, exists_eq_left']

/-- Settles O44: the edges that are not acted on, and those that are, by trigger state. -/
theorem triggerEdgeByState : Obligations.TriggerEdgeByState := by
  unfold Obligations.TriggerEdgeByState
  intro s elapsed x rising
  refine ⟨fun hreset => congrArg Host.Outcome.next (if_pos hreset), ?_⟩
  rintro ⟨hreset, hquiet, hahead⟩ later edge
  have hedge : edge = .next (if edgeActs later x rising then takeEdge x later else later) := by
    refine congrArg Host.Outcome.next ((if_neg (by simp [hreset])).trans ?_)
    rw [passTime_quiet hquiet hahead]
  refine ⟨fun hidle => ?ignored, fun b hb hstation hpolarity => ?acted⟩
  case ignored =>
    rw [hedge, if_neg]
    rw [edgeActs_iff]
    rintro ⟨hstation, b, hb, hpolarity⟩
    have hb' : armBank x s = some b := hb
    rcases hidle with hunaddressed | hnone | ⟨b', hb'', hother⟩
    · exact hstation hunaddressed
    · rw [hnone] at hb'; cases hb'
    · obtain rfl : b = b' := Option.some.inj (hb'.symm.trans hb'')
      by_cases hread : Memory.read b 37 = 0
      · exact hother.1 (hpolarity.2 hread) hread
      · exact hread (hpolarity.1 (hother.2 hread))
  case acted =>
    have hacts : edgeActs later x rising = true := edgeActs_iff.2 ⟨hstation, b, hb, hpolarity⟩
    rw [hedge, if_pos hacts]
    have htrigger : triggerOf later x = triggerOf s x := rfl
    refine ⟨fun hd => ?disarmed, fun ha => ?armed, fun l hl => ?latched, fun hrest => ?resting⟩
    case disarmed => simp only [takeEdge, htrigger, hd]
    case armed =>
      simp only [takeEdge, htrigger, ha]
      have hmounted : mountedTip later x = mountedTip s x := rfl
      refine congrArg Host.Outcome.next (onTcu_congr ?_)
      simp only [makeLatch, hmounted]
      cases mountedTip s x <;> rfl
    case latched =>
      simp only [takeEdge, htrigger, hl]
      rfl
    case resting =>
      rcases hrest with ⟨n, hn⟩ | hsup
      · simp only [takeEdge, htrigger, hn]
      · simp only [takeEdge, htrigger, hsup]

end

/-! ### Rounding and saturation -/

/-- The multiple of the divisor that `roundDiv` picks, of the absolute value. -/
theorem roundDiv_bounds (n : Int) {d : Nat} (hd : 0 < d) : ∃ p : Nat, (roundDiv n d * d = p ∨ roundDiv n d * d = -p)
    ∧ (n < 0 → roundDiv n d * d = -p) ∧ (0 ≤ n → roundDiv n d * d = p)
    ∧ 2 * p ≤ 2 * n.natAbs + d ∧ 2 * n.natAbs + d < 2 * p + 2 * d := by
  let q := (2 * n.natAbs + d) / (2 * d)
  have hlow : q * (2 * d) ≤ 2 * n.natAbs + d := Nat.div_mul_le_self _ _
  have hhigh : 2 * n.natAbs + d < (q + 1) * (2 * d) := by
    have := Nat.lt_div_mul_add (a := 2 * n.natAbs + d) (b := 2 * d) (by omega)
    rw [Nat.add_mul, Nat.one_mul]
    exact this
  have hneg (h : n < 0) : roundDiv n d * d = -((q * d : Nat) : Int) := by
    simp only [roundDiv, if_pos h, q]
    push_cast
    ring
  have hpos (h : 0 ≤ n) : roundDiv n d * d = ((q * d : Nat) : Int) := by
    simp only [roundDiv, if_neg (not_lt.2 h), q]
    push_cast
    ring
  have hq : q * (2 * d) = 2 * (q * d) := by ring
  have hq1 : (q + 1) * (2 * d) = 2 * (q * d) + 2 * d := by ring
  refine ⟨q * d, ?_, hneg, hpos, by omega, by omega⟩
  rcases lt_or_ge n 0 with h | h
  · exact .inr (hneg h)
  · exact .inl (hpos h)

theorem saturate32_eq (v : Int) : saturate32 v = max (-2 ^ 31) (min (2 ^ 31 - 1) v) := by
  unfold saturate32
  split_ifs <;> omega

/-- Settles O45: nearest with ties away from zero, the four modes, and saturation. -/
theorem roundingAndSaturation : Obligations.RoundingAndSaturation := by
  unfold Obligations.RoundingAndSaturation
  refine ⟨fun n d hd => ?nearest, fun v => ?modes, fun m v => ⟨saturate32_eq _, ?saturates⟩⟩
  case nearest =>
    intro q
    obtain ⟨p, -, hneg, hpos, hlow, hhigh⟩ := roundDiv_bounds n hd
    have hq : q * d = if n < 0 then -(p : Int) else p := by
      split_ifs with h
      · exact hneg h
      · exact hpos (not_lt.1 h)
    rw [hq, Int.abs_eq_natAbs, Int.abs_eq_natAbs, Int.abs_eq_natAbs]
    split_ifs <;> constructor <;> omega
  case modes =>
    intro near
    have hsign : Int.sign 10 = 1 := rfl
    simp only [near, roundOutput, Int.abs_eq_natAbs, Int.tdiv_eq_ediv, hsign]
    refine ⟨?_, ?_, ?_, ?_, by omega⟩ <;> split_ifs <;> omega
  case saturates =>
    rw [outputSaturates, decide_eq_true_iff, saturate32_eq]
    omega

end Sys2Proof.Proofs
end

section
/-! The stages of the correction chain (O47). -/
namespace Sys2Proof.Proofs

open Sys2Proof.Machine Sys2Proof.Laws

section
variable {b : Bank} {i : Nat} {pos : Int}

/-- R10: a lookup raises the range condition beyond the span of a table that is not the identity table. -/
theorem lookup_beyond : (lookup b i pos).beyond = true ↔ ¬ (tableCount b i = 2 ∧ tableNode b i 0 = 0 ∧ tableNode b i 1 = 0)
    ∧ (pos < tableStart b i ∨ tableStart b i + ((tableCount b i - 1) * tablePitch b i : Nat) < pos) := by
  have hid : isIdentity b i = true ↔ tableCount b i = 2 ∧ tableNode b i 0 = 0 ∧ tableNode b i 1 = 0 := by
    simp [isIdentity, and_assoc]
  rw [← hid]
  unfold lookup
  dsimp only
  split_ifs with h h1 h2
  · exact iff_of_false (by simp) (fun hb => hb.1 h)
  · exact iff_of_true rfl ⟨h, .inl h1⟩
  · exact iff_of_true rfl ⟨h, .inr h2⟩
  · exact iff_of_false (by simp) (fun hb => hb.2.elim h1 h2)

theorem axisSet_getLsbD (x y z : Bool) :
    (axisSet x y z).getLsbD 0 = x ∧ (axisSet x y z).getLsbD 1 = y ∧ (axisSet x y z).getLsbD 2 = z :=
  ⟨getLsbD_ofNat_bitsNat (by decide), getLsbD_ofNat_bitsNat (by decide), getLsbD_ofNat_bitsNat (by decide)⟩

theorem outputSaturates_iff {m : Rounding} {v : Int} : outputSaturates m v = true ↔ outputCoord m v ≠ roundOutput m v :=
  decide_eq_true_iff

/-- Settles O47: the stages, the axes recorded, the flag bits, and the cell position of a point. -/
theorem correctionChainStages : Obligations.CorrectionChainStages := by
  unfold Obligations.CorrectionChainStages
  refine ⟨fun b a o c m => ?stages, fun valid beyond saturated noTip stale clamp => ?flags, fun s x b p hb => ?point⟩
  case stages =>
    intro r stage1 stage2 qx qy qz e beyond nrad
    obtain ⟨hbx, hby, hbz⟩ := axisSet_getLsbD ((lookup b 0 qx).beyond || (lookup b 1 qx).beyond || (lookup b 2 qx).beyond)
      ((lookup b 3 qy).beyond || (lookup b 4 qy).beyond || (lookup b 5 qy).beyond || (lookup b 9 qy).beyond
        || (lookup b 10 qy).beyond || (lookup b 11 qy).beyond)
      ((lookup b 6 qz).beyond || (lookup b 7 qz).beyond || (lookup b 8 qz).beyond)
    obtain ⟨hsx, hsy, hsz⟩ := axisSet_getLsbD (outputSaturates m r.t.x) (outputSaturates m r.t.y) (outputSaturates m r.t.z)
    refine ⟨rfl, rfl, rfl, rfl, rfl, rfl, rfl, ?_, ?_, ?_, ?_, ?_, ?_⟩
    · exact (iff_of_eq (congrArg (· = true) hbx)).trans (by simp only [Bool.or_eq_true, lookup_beyond, or_assoc, beyond])
    · exact (iff_of_eq (congrArg (· = true) hby)).trans (by simp only [Bool.or_eq_true, lookup_beyond, or_assoc, beyond])
    · exact (iff_of_eq (congrArg (· = true) hbz)).trans (by simp only [Bool.or_eq_true, lookup_beyond, or_assoc, beyond])
    · exact (iff_of_eq (congrArg (· = true) hsx)).trans outputSaturates_iff
    · exact (iff_of_eq (congrArg (· = true) hsy)).trans outputSaturates_iff
    · exact (iff_of_eq (congrArg (· = true) hsz)).trans outputSaturates_iff
  case flags =>
    refine ⟨?_, ?_, ?_, ?_, ?_, ?_⟩ <;> exact getLsbD_ofNat_bitsNat (by decide)
  case point =>
    intro cell w temp at20
    simp only [pointPosition, hb]
    cases hw : s.tcu.workpiece.valid <;> simp only [at20, w, hw] <;> rfl

end

end Sys2Proof.Proofs
end

section
/-! The field slots (10.4): where the active SLOT MAP places one, and what its reader gives. -/
namespace Sys2Proof.Proofs

open Sys2Proof.Machine Sys2Proof.Laws

/-- The kind word of a slot's entry (R127). -/
def slotKind : SlotName → Nat
  | .armSample _ => 1
  | .tempModule _ => 2
  | .probeStatus _ => 3
  | .rackStatus => 4

/-- The word of a slot's entry that says which of its kind the slot is (R127). -/
def slotWhich : SlotName → Nat
  | .armSample x => armCode x
  | .tempModule m => m
  | .probeStatus x => armCode x
  | .rackStatus => 0

/-- The slots that an entry can name: there are six temperature modules. -/
def Nameable : SlotName → Prop
  | .tempModule m => m < 6
  | _ => True

theorem slotNameOf_eq_some {kind which : Nat} {n : SlotName} (hn : Nameable n) :
    slotNameOf kind which = some n ↔ kind = slotKind n ∧ which = slotWhich n := by
  unfold slotNameOf
  rcases n with (_ | _) | m | (_ | _) | _
  all_goals simp only [slotKind, slotWhich, armCode, Nameable] at hn ⊢
  all_goals split_ifs <;> simp <;> omega

theorem slotNameOf_tempModule {kind which m : Nat} (h : slotNameOf kind which = some (.tempModule m)) : m < 6 := by
  unfold slotNameOf at h
  split_ifs at h with _ _ _ _ hw
  all_goals cases h
  exact hw

theorem slotOffset_eq_some {b : Bank} {n : SlotName} {off : Nat} (hn : Nameable n) :
    slotOffset b n = some off ↔ ∃ e < 16, wordNat b (3 * e) = slotKind n ∧ wordNat b (3 * e + 1) = slotWhich n
      ∧ wordNat b (3 * e + 2) = off ∧ ∀ d < e, ¬ (wordNat b (3 * d) = slotKind n ∧ wordNat b (3 * d + 1) = slotWhich n) := by
  have hnames : ∀ e, ((slotNameOf (wordNat b (3 * e)) (wordNat b (3 * e + 1))).map (fun n => (n, wordNat b (3 * e + 2)))).any
      (fun v => decide (v.1 = n)) = true ↔ wordNat b (3 * e) = slotKind n ∧ wordNat b (3 * e + 1) = slotWhich n := by
    intro e
    rw [← slotNameOf_eq_some hn]
    cases slotNameOf (wordNat b (3 * e)) (wordNat b (3 * e + 1)) <;> simp
  unfold slotOffset slotEntries
  rw [List.find?_filterMap]
  simp only [Option.map_eq_some_iff, Option.bind_eq_some_iff, List.find?_range_eq_some, List.mem_range, hnames,
    Bool.not_eq_true', ← Bool.not_eq_true]
  constructor
  · rintro ⟨v, ⟨e, ⟨⟨hkind, hwhich⟩, he, hfirst⟩, m, _, rfl⟩, rfl⟩
    exact ⟨e, he, hkind, hwhich, rfl, hfirst⟩
  · rintro ⟨e, he, hkind, hwhich, rfl, hfirst⟩
    exact ⟨_, ⟨e, ⟨⟨hkind, hwhich⟩, he, hfirst⟩, n, (slotNameOf_eq_some hn).2 ⟨hkind, hwhich⟩, rfl⟩, rfl⟩

section
variable {s : State} {n : SlotName} {input : Memory 8} {off : Nat}

/-- Where the active SLOT MAP places a slot. -/
def slotPlace (s : State) (n : SlotName) : Option Nat := (activeBank .slotMap s).bind (fun b => slotOffset b n)

theorem slotPlace_eq_some (hn : Nameable n) : slotPlace s n = some off ↔ SlotAt s (slotKind n) (slotWhich n) off := by
  simp only [slotPlace, Option.bind_eq_some_iff, slotOffset_eq_some hn, SlotAt]

/-- The byte offset of a slot that is read: it is placed and its written mark is set. -/
def slotRead (s : State) (input : Memory 8) (n : SlotName) : Option Nat := (slotPlace s n).filter (slotWritten input)

theorem slotRead_of_slotAt (hn : Nameable n) (hat : SlotAt s (slotKind n) (slotWhich n) off) (hm : marked input off) :
    slotRead s input n = some off := by
  rw [slotRead, (slotPlace_eq_some hn).2 hat, Option.filter_some_pos (by exact hm)]

theorem slotRead_of_slotUnread (hn : Nameable n) (h : SlotUnread s input (slotKind n) (slotWhich n)) :
    slotRead s input n = none := by
  rw [slotRead, Option.filter_eq_none_iff]
  exact fun off hoff hwritten => h off ((slotPlace_eq_some hn).1 hoff) hwritten

theorem readTemp_eq (m r : Nat) : readTemp (activeBank .slotMap s) input m r = (slotRead s input (.tempModule m)).map (fun off =>
    ⟨signedBits 24 (Memory.readLE input (off + 4 + 4 * r) 3),
      decide ((Memory.read input (off + 7 + 4 * r)).extractLsb' 4 2 = 0),
      (Memory.read input (off + 7 + 4 * r)).extractLsb' 0 4⟩) := by
  have hstatus : ∀ c : Byte, decide (bitField c.toNat 4 2 = 0) = decide (c.extractLsb' 4 2 = 0) := by decide
  have hcounter : ∀ c : Byte, BitVec.ofNat 4 (bitField c.toNat 0 4) = c.extractLsb' 0 4 := by decide
  unfold readTemp slotRead slotPlace
  cases (activeBank .slotMap s).bind (fun b => slotOffset b (.tempModule m)) with
  | none => rfl
  | some off => by_cases hw : slotWritten input off = true <;> simp [hw, hstatus, hcounter]

theorem readProbe_eq (x : Arm) : readProbe (activeBank .slotMap s) input x = (slotRead s input (.probeStatus x)).map (fun off =>
    (if Memory.read input (off + 1) = 0 then .seated else if Memory.read input (off + 1) = 1 then .opened else .fault,
      BitVec.ofNat 16 (Memory.readLE input (off + 2) 2))) := by
  unfold readProbe slotRead slotPlace
  cases (activeBank .slotMap s).bind (fun b => slotOffset b (.probeStatus x)) with
  | none => rfl
  | some off => by_cases hw : slotWritten input off = true <;> simp [hw]

theorem readRack_eq : readRack (activeBank .slotMap s) input = (slotRead s input .rackStatus).map (fun off =>
    BitVec.ofNat 12 (Memory.readLE input (off + 1) 2)) := by
  unfold readRack slotRead slotPlace
  cases (activeBank .slotMap s).bind (fun b => slotOffset b .rackStatus) with
  | none => rfl
  | some off => by_cases hw : slotWritten input off = true <;> simp [hw]

theorem slotRead_tempModule_of_six_le {m : Nat} (h : 6 ≤ m) : slotRead s input (.tempModule m) = none := by
  have hplace : slotPlace s (.tempModule m) = none := by
    simp only [slotPlace, Option.bind_eq_none_iff, slotOffset, Option.map_eq_none_iff, List.find?_eq_none, slotEntries,
      List.mem_filterMap, Option.map_eq_some_iff, decide_eq_true_eq]
    rintro b _ _ ⟨e, _, n, hn, rfl⟩ rfl
    have := slotNameOf_tempModule hn
    omega
  rw [slotRead, hplace, Option.filter_none]

end

end Sys2Proof.Proofs
end

section
/-! The temperature channels (02, 2.1 to 2.7): the tests of a sample, what it makes of a channel, and the steps of a pass. -/
namespace Sys2Proof.Proofs

open Sys2Proof.Machine Sys2Proof.Laws

section
variable {r : ChannelRecord} {sync : BitVec 64} {m : TempReading} {c : Channel} {f : ChannelFilter} {why : RejectReason}

theorem rateOk_iff {x : Int} : rateOk r sync x f = true ↔ (let e : Int := (sync.toNat : Int) - f.time.toNat
    if 0 < e then roundDiv (|x - f.last| * 10 ^ 9) e.toNat ≤ r.maxRate else x = f.last) := by
  simp only [rateOk, Int.abs_eq_natAbs]
  split_ifs <;> simp

theorem rejection_of_not_ok (h : m.ok = false) : rejection r sync c m = some .status := by simp [rejection, h]

theorem rejection_of_range (hok : m.ok = true) (h : ¬ (r.low ≤ m.value ∧ m.value ≤ r.high)) :
    rejection r sync c m = some .range := by
  have hout : m.value < r.low ∨ r.high < m.value := by omega
  simp [rejection, hok, hout]

theorem rejection_of_filter (hok : m.ok = true) (h : r.low ≤ m.value ∧ m.value ≤ r.high)
    (hstate : c.state = .valid ∨ c.state = .held) (hf : c.filter = some f) :
    rejection r sync c m = if rateOk r sync m.value f then none else some .rate := by
  have hin : ¬ (m.value < r.low ∨ r.high < m.value) := by omega
  rcases hstate with hs | hs <;> simp [rejection, hok, hin, hs, hf]

/-- R32: outside VALID and HELD there is no rate test. -/
theorem rejection_waived (hok : m.ok = true) (h : r.low ≤ m.value ∧ m.value ≤ r.high)
    (hstate : c.state = .noData ∨ c.state = .failed) : rejection r sync c m = none := by
  have hin : ¬ (m.value < r.low ∨ r.high < m.value) := by omega
  rcases hstate with hs | hs <;> simp [rejection, hok, hin, hs]

theorem updateChannel_of_seen (h : c.counter = some m.counter) : updateChannel r sync m c = (c, none) := by
  simp [updateChannel, isNewSample, h]

theorem updateChannel_accepted (h : c.counter ≠ some m.counter) (hnone : rejection r sync c m = none) :
    updateChannel r sync m c = (acceptSample r sync m.value { c with counter := some m.counter },
      if c.state = .failed then some .recovered else none) := by
  simp [updateChannel, isNewSample, h, hnone]

theorem updateChannel_rejected (h : c.counter ≠ some m.counter) (hwhy : rejection r sync c m = some why) :
    updateChannel r sync m c = rejectSample r why { c with counter := some m.counter } := by
  simp [updateChannel, isNewSample, h, hwhy]

theorem acceptSample_seeds {x : Int} (h : c.state = .noData ∨ c.state = .failed) :
    acceptSample r sync x c = { c with state := .valid, filter := some ⟨256 * x, x, sync⟩, count := 0 } := by
  rcases h with h | h <;> simp [acceptSample, h]

theorem acceptSample_steps {x : Int} (h : c.state = .valid ∨ c.state = .held) (hf : c.filter = some f) :
    acceptSample r sync x c
      = { c with state := .valid, filter := some ⟨f.y + (256 * x - f.y) / 2 ^ r.shift, x, sync⟩, count := 0 } := by
  rcases h with h | h <;> simp [acceptSample, filterStep, h, hf]

theorem rejectSample_unheld (h : c.state = .noData ∨ c.state = .failed) :
    rejectSample r why c = ({ c with reason := some why }, none) := by
  rcases h with h | h <;> simp [rejectSample, h]

/-- R34, R35: a rejected sample of a held value is counted; at the hold limit the channel fails. -/
theorem rejectSample_held (h : c.state = .valid ∨ c.state = .held) :
    rejectSample r why c = (let n := if c.state = .valid then 1 else c.count + 1
      if n < r.holdLimit then ({ c with reason := some why, state := .held, count := n }, none)
      else ({ c with reason := some why, state := .failed, count := n }, some (.failed why))) := by
  obtain ⟨state, filter, count, reason, counter⟩ := c
  dsimp only at h
  rcases h with rfl | rfl
  all_goals
    simp only [rejectSample, if_true, reduceCtorEq, if_false]
    split_ifs
    · omega
    · rfl
    · rfl
    · omega

end

section
variable {s : State} {table : Bank} {sync : BitVec 64} {input : Memory 8} {i : Nat}

theorem channelRecord_role_eq_some {role : Nat} :
    (channelRecord table i).role = some role ↔ wordNat table (8 * i) ≠ 0 ∧ wordNat table (8 * i) - 1 = role := by
  simp only [channelRecord]
  split_ifs <;> simp [*]

theorem intakeChannel_unused (h : wordNat table (8 * i) = 0) : intakeChannel table sync input i s = s := by
  simp [intakeChannel, channelRecord, h]

theorem intakeChannel_unread (h : readTemp (activeBank .slotMap s) input (wordNat table (8 * i + 1)) (wordNat table (8 * i + 2)) = none) :
    intakeChannel table sync input i s = s := by
  unfold intakeChannel
  simp only [channelRecord, h]
  split <;> simp_all

theorem intakeChannel_read {m : TempReading} (h : wordNat table (8 * i) ≠ 0)
    (hm : readTemp (activeBank .slotMap s) input (wordNat table (8 * i + 1)) (wordNat table (8 * i + 2)) = some m) :
    intakeChannel table sync input i s
      = postChannel i (updateChannel (channelRecord table i) sync m (channelOf s i)).2
          { s with thu := { s.thu with
            channels := s.thu.channels.set i (updateChannel (channelRecord table i) sync m (channelOf s i)).1 } } := by
  have hrole : (channelRecord table i).role = some (wordNat table (8 * i) - 1) := channelRecord_role_eq_some.2 ⟨h, rfl⟩
  have hread : readTemp (activeBank .slotMap s) input (channelRecord table i).module (channelRecord table i).source = some m := hm
  simp only [intakeChannel, hrole, hread]

theorem postChannel_eq {e : Option ChannelEvent} : postChannel i e s = (match e with
    | none => id
    | some (.failed why) => post .thermal (.channelFailed i why)
    | some .recovered => post .thermal (.channelRecovered i) : State → State) s := by
  rcases e with _ | (_ | _) <;> rfl

theorem arrange_nil (n : Nat) : arrange n [] = List.range n := by
  simp [arrange]

theorem takeThermal_inactive {t : ThermalStep} (h : activeBank .channelTable s = none) : takeThermal sync input t s = s := by
  simp only [takeThermal, h]

theorem thermalPass_inactive (h : activeBank .channelTable s = none) (steps : List ThermalStep) :
    thermalPass sync input steps s = s := by
  unfold thermalPass
  induction steps with
  | nil => rfl
  | cons t ts ih => rw [List.foldl_cons, takeThermal_inactive h, ih]

theorem tbs_takeThermal (t : ThermalStep) : (takeThermal sync input t s).tbs = s.tbs :=
  ((takeThermal_touches (bs := [.thu, .mgd, .evu]) sync input t (by decide) (by decide) (by decide)).2 (.refl _ s)).tbs (by decide)

theorem activeBank_congr {k : TableKind} {u : State} (h : u.tbs = s.tbs) : activeBank k u = activeBank k s := by
  cases k <;> simp only [activeBank, State.tbsOf, h]

theorem takeThermal_channel (h : activeBank .channelTable s = some table) :
    takeThermal sync input (.channel i) s = intakeChannel table sync input i s := by simp only [takeThermal, h]

theorem takeThermal_aggregate {a : Nat} (h : activeBank .channelTable s = some table) :
    takeThermal sync input (.aggregate a) s = aggregateRole table a s := by simp only [takeThermal, h]

/-- The steps of a pass all read the CHANNEL TABLE that is active at its start. -/
theorem foldl_takeThermal {α : Type} {g : α → ThermalStep} {f : α → State → State} (htable : activeBank .channelTable s = some table)
    (hg : ∀ a u, activeBank .channelTable u = some table → takeThermal sync input (g a) u = f a u) (l : List α) :
    thermalPass sync input (l.map g) s = l.foldl (fun u a => f a u) s := by
  unfold thermalPass
  induction l generalizing s with
  | nil => rfl
  | cons a l ih =>
    have hnext : activeBank .channelTable (f a s) = some table := by
      rw [← hg a s htable, activeBank_congr (tbs_takeThermal _), htable]
    rw [List.map_cons, List.foldl_cons, List.foldl_cons, hg a s htable, ih hnext]

theorem tbs_thermalPass (steps : List ThermalStep) : (thermalPass sync input steps s).tbs = s.tbs :=
  ((thermalPass_touches (bs := [.thu, .mgd, .evu]) sync input steps (by decide) (by decide) (by decide)).2 (.refl _ s)).tbs
    (by decide)

theorem thermalPass_default (h : activeBank .channelTable s = some table) :
    thermalPass sync input (thermalSteps [] []) s
      = (List.range 8).foldl (fun u a => aggregateRole table a u)
          ((List.range 24).foldl (fun u i => intakeChannel table sync input i u) (restartChannels s)) := by
  have hrestart : activeBank .channelTable (restartChannels s) = some table := by
    rw [activeBank_congr (((restartChannels_touches (bs := [.thu]) (by decide)).2 (.refl _ s)).tbs (by decide)), h]
  have hchannels := foldl_takeThermal (sync := sync) (input := input) (g := .channel) hrestart (fun i u hu => takeThermal_channel hu)
    (List.range 24)
  have hafter : activeBank .channelTable (thermalPass sync input ((List.range 24).map .channel) (restartChannels s)) = some table := by
    rw [activeBank_congr (tbs_thermalPass _), hrestart]
  have haggregates := foldl_takeThermal (sync := sync) (input := input) (g := .aggregate) hafter (fun a u hu => takeThermal_aggregate hu)
    (List.range 8)
  rw [← hchannels, ← haggregates]
  unfold thermalPass thermalSteps
  rw [arrange_nil, arrange_nil, List.foldl_cons, List.foldl_append]
  simp only [takeThermal, h]

end

/-- Settles O48: the first test that fails decides, and the channel's state what becomes of it; the steps of a pass read one
CHANNEL TABLE. -/
theorem channelUpdateByState : Obligations.ChannelUpdateByState := by
  unfold Obligations.ChannelUpdateByState
  refine ⟨fun r sync m c => ⟨updateChannel_of_seen, fun hnew hok hin => ?accepted, fun why hnew hwhy => ?rejected⟩,
    fun table sync input i s hi hlen => ⟨fun h => ?unused, fun hunread hmodule => ?unread, fun off c hused hmodule hat hm hc => ?read⟩,
    fun sync input s => ⟨fun h steps => thermalPass_inactive h steps, fun table h => thermalPass_default h⟩⟩
  case accepted =>
    refine ⟨fun hstate => ?_, fun hstate => ?_, fun f hstate hf hslow => ?_⟩
    · rw [updateChannel_accepted hnew (rejection_waived hok hin (.inl hstate)), acceptSample_seeds (by exact .inl hstate), if_neg (by simp [hstate])]
    · rw [updateChannel_accepted hnew (rejection_waived hok hin (.inr hstate)), acceptSample_seeds (by exact .inr hstate), if_pos hstate]
    · have hnone : rejection r sync c m = none := by rw [rejection_of_filter hok hin hstate hf, if_pos (rateOk_iff.2 hslow)]
      rw [updateChannel_accepted hnew hnone, acceptSample_steps (by exact hstate) (by exact hf),
        if_neg (by rcases hstate with h | h <;> simp [h])]
  case rejected =>
    have hrejection : rejection r sync c m = some why := by
      rcases hwhy with ⟨hok, rfl⟩ | ⟨hok, hout, rfl⟩ | ⟨hok, hin, rfl, hstate, f, hf, hfast⟩
      · exact rejection_of_not_ok hok
      · exact rejection_of_range hok hout
      · rw [rejection_of_filter hok hin hstate hf, if_neg (fun h => hfast (rateOk_iff.1 h))]
    refine ⟨fun hstate => ?_, fun hstate hn => ?_, fun hstate hn => ?_⟩
    · rw [updateChannel_rejected hnew hrejection, rejectSample_unheld (by exact hstate)]
    · rw [updateChannel_rejected hnew hrejection, rejectSample_held (by exact hstate)]
      exact if_pos hn
    · rw [updateChannel_rejected hnew hrejection, rejectSample_held (by exact hstate)]
      exact if_neg (Nat.not_lt.2 hn)
  case unused =>
    by_cases hused : wordNat table (8 * i) = 0
    · exact intakeChannel_unused hused
    · refine intakeChannel_unread ?_
      rw [readTemp_eq, slotRead_tempModule_of_six_le (h.resolve_left hused)]
      rfl
  case unread =>
    refine intakeChannel_unread ?_
    rw [readTemp_eq, slotRead_of_slotUnread (by exact hmodule) hunread]
    rfl
  case read =>
    have hread : slotRead s input (.tempModule (wordNat table (8 * i + 1))) = some off :=
      slotRead_of_slotAt (n := .tempModule _) (by exact hmodule) hat hm
    have hchannel : channelOf s i = c := by simp [channelOf, List.getD, hc]
    have hoff : off + 7 + 4 * wordNat table (8 * i + 2) = off + 4 + 4 * wordNat table (8 * i + 2) + 3 := by omega
    have hreading := readTemp_eq (s := s) (input := input) (wordNat table (8 * i + 1)) (wordNat table (8 * i + 2))
    rw [hread, Option.map_some, hoff] at hreading
    have hrecord : channelRecord table i = ⟨some (wordNat table (8 * i) - 1), wordNat table (8 * i + 1),
        wordNat table (8 * i + 2), wordInt table (8 * i + 3), wordInt table (8 * i + 4), wordNat table (8 * i + 5),
        wordNat table (8 * i + 6), wordNat table (8 * i + 7)⟩ := by rw [channelRecord, if_neg (by exact hused)]
    refine (intakeChannel_read hused hreading).trans ?_
    rw [hchannel, hrecord]
    exact postChannel_eq

end Sys2Proof.Proofs
end

section
/-! The Motion Guard's watch of a tip position (05, 5.1, 5.2, 5.5 to 5.7). -/
namespace Sys2Proof.Proofs

open Sys2Proof.Machine Sys2Proof.Laws

section
variable {s : State} {x : Arm} {b : Bank} {p : Vec3} {z : Nat}

theorem getLsbD_zoneSet {f : Nat → Bool} (hz : z < 8) : (zoneSet f).getLsbD z = f z := by
  rw [zoneSet, getLsbD_ofNat_bitsNat hz]
  simp [List.getD, hz]

/-- R108: the latches that stand with the arm's tip at `p`. -/
def latchesAt (s : State) (x : Arm) (b : Bank) (p : Vec3) : BitVec 8 :=
  zoneSet (fun z => zoneEnabled (activeBank .zoneTable s) z && insideZone (activeBank .zoneTable s) b (cellTransform b p) z
    && !holds s x z)

/-- R109: the latches that set in. -/
def onsetsAt (s : State) (x : Arm) (b : Bank) (p : Vec3) : BitVec 8 := latchesAt s x b p &&& ~~~(s.mgdOf x).latches

/-- R100, R108, R109, R113: the arm's guard record after the watch. -/
def guardedRecord (s : State) (x : Arm) (b : Bank) (p : Vec3) (g : MgdArm) : MgdArm :=
  { g with
    inside := insideRecords s b (cellTransform b p), latches := latchesAt s x b p
    causes := if onsetsAt s x b p &&& ~~~(creepZones g.creep) = 0 then g.causes else addCause g.causes .intrusion
    creep := creepOf (creepZones g.creep &&& latchesAt s x b p) (hasCreepLimit g.creep && decide ((s.cenOf x).limit ≠ 0)) }

theorem insideOf_insideRecords (hz : z < 8) : (insideRecords s b p).getD z .unknown
    = if insideZone (activeBank .zoneTable s) b p z then .inside else .outside := by
  simp [insideRecords, List.getD, hz]

theorem intrusionLatches_records :
    intrusionLatches (s.onMgd x (fun g => { g with inside := insideRecords s b (cellTransform b p) })) x = latchesAt s x b p := by
  have hholds : ∀ z, holds (s.onMgd x (fun g => { g with inside := insideRecords s b (cellTransform b p) })) x z = holds s x z :=
    fun _ => rfl
  have hzones : activeBank .zoneTable (s.onMgd x (fun g => { g with inside := insideRecords s b (cellTransform b p) }))
      = activeBank .zoneTable s := rfl
  refine BitVec.eq_of_getLsbD_eq (fun z hz => ?_)
  rw [intrusionLatches, latchesAt, getLsbD_zoneSet hz, getLsbD_zoneSet hz, insideOf, onMgd_mgdOf, insideOf_insideRecords hz, hholds, hzones]
  cases insideZone (activeBank .zoneTable s) b (cellTransform b p) z <;> simp

theorem intrusionOnset_eq (onsets : BitVec 8) : intrusionOnset x onsets s = { s with
    mgd := { s.mgd with arm := s.mgd.arm.modify x (fun g => { g with
      causes := if onsets &&& ~~~(creepZones g.creep) = 0 then g.causes else addCause g.causes .intrusion }) }
    evu := if onsets = 0 then s.evu else (post (.intrusion x) (.zones onsets) s).evu } := by
  have hmodify (f : MgdArm → MgdArm) (h : f (s.mgdOf x) = (if onsets &&& ~~~(creepZones (s.mgdOf x).creep) = 0 then s.mgdOf x
      else { s.mgdOf x with causes := addCause (s.mgdOf x).causes .intrusion })) :
      s.mgd.arm.modify x (fun g => { g with
        causes := if onsets &&& ~~~(creepZones g.creep) = 0 then g.causes else addCause g.causes .intrusion })
        = s.mgd.arm.modify x f := by
    refine modify_congr ?_
    rw [show s.mgd.arm.get x = s.mgdOf x from rfl, h]
    split_ifs <;> rfl
  by_cases hnone : onsets = 0
  · rw [intrusionOnset, if_pos hnone, if_pos hnone, hmodify id (by rw [if_pos (by simp [hnone])]; rfl), modify_self rfl]
  · by_cases hcovered : onsets &&& ~~~(creepZones (s.mgdOf x).creep) = 0
    · rw [intrusionOnset, if_neg hnone, if_neg hnone, hmodify id (by rw [if_pos hcovered]; rfl), modify_self rfl]
      exact if_pos hcovered
    · rw [intrusionOnset, if_neg hnone, if_neg hnone, hmodify (fun g => { g with causes := addCause g.causes .intrusion }) (by rw [if_neg hcovered])]
      exact if_neg hcovered

theorem monitorArm_eq (hb : armBank x s = some b) : monitorArm x p s = { s with
    mgd := { s.mgd with arm := s.mgd.arm.modify x (guardedRecord s x b p) }
    evu := if onsetsAt s x b p = 0 then s.evu else (post (.intrusion x) (.zones (onsetsAt s x b p)) s).evu } := by
  have hformer : ((s.onMgd x (fun g => { g with inside := insideRecords s b (cellTransform b p) })).mgdOf x).latches
      = (s.mgdOf x).latches := by rw [onMgd_mgdOf]
  unfold monitorArm
  rw [hb]
  dsimp only
  rw [intrusionLatches_records, hformer]
  change removeCreep x (intrusionOnset x (onsetsAt s x b p) _) = _
  rw [intrusionOnset_eq]
  dsimp only [removeCreep, State.onMgd]
  rw [modify_modify, modify_modify, modify_modify]
  rfl

theorem zoneEnabled_iff : zoneEnabled (activeBank .zoneTable s) z = true
    ↔ ∃ t, activeBank .zoneTable s = some t ∧ (zoneRecord t z).enabled = true := by
  unfold zoneEnabled
  cases activeBank .zoneTable s <;> simp

theorem holds_eq_false : holds s x z = false ↔ ∀ w v, zoneOf s z ≠ .held x w v := by
  unfold holds
  cases zoneOf s z with
  | free => simp
  | held h r w =>
    rw [decide_eq_false_iff_not]
    exact ⟨fun h _ _ heq => h (Zone.held.inj heq).1, fun hall heq => hall r w (by rw [heq])⟩

theorem getLsbD_latchesAt (hz : z < 8) : (latchesAt s x b p).getLsbD z = true
    ↔ zoneEnabled (activeBank .zoneTable s) z = true ∧ insideZone (activeBank .zoneTable s) b (cellTransform b p) z = true
      ∧ holds s x z = false := by
  rw [latchesAt, getLsbD_zoneSet hz]
  simp [and_assoc]

/-- The zones of an onset that no creep entry covers. -/
theorem uncovered_iff {onsets : BitVec 8} {creep : BitVec 9} : onsets &&& ~~~(creepZones creep) ≠ 0
    ↔ ∃ z < 8, onsets.getLsbD z = true ∧ creep.getLsbD z = false := by
  have hbit : ∀ z < 8, (onsets &&& ~~~(creepZones creep)).getLsbD z = (onsets.getLsbD z && !creep.getLsbD z) := by
    intro z hz
    simp [creepZones, hz]
  constructor
  · intro h
    by_contra hno
    refine h (BitVec.eq_of_getLsbD_eq (fun z hz => ?_))
    rw [hbit z hz, BitVec.ofNat_eq_ofNat, BitVec.getLsbD_zero, Bool.and_eq_false_iff, Bool.not_eq_false']
    by_contra hbits
    exact hno ⟨z, hz, by simpa using hbits⟩
  · rintro ⟨z, hz, hon, hcreep⟩ h
    have := hbit z hz
    rw [h, hon, hcreep] at this
    simp at this

end

/-- Settles O50: the watch changes one guard record, and each part of that record is read off it. -/
theorem guardOnAPosition : Obligations.GuardOnAPosition := by
  unfold Obligations.GuardOnAPosition
  intro s x p b hb
  dsimp only
  have hin : ∀ z, insideZone (activeBank .zoneTable s) b (cellTransform b p) z = true ↔ ∃ t, activeBank .zoneTable s = some t
      ∧ ((zoneRecord t z).lo.x - wordNat b 36 ≤ word40 b (11 * 0 + 8) + wordInt b (11 * 0 + 10) * p.x
        ∧ word40 b (11 * 0 + 8) + wordInt b (11 * 0 + 10) * p.x ≤ (zoneRecord t z).hi.x + wordNat b 36)
      ∧ ((zoneRecord t z).lo.y - wordNat b 36 ≤ word40 b (11 * 1 + 8) + wordInt b (11 * 1 + 10) * p.y
        ∧ word40 b (11 * 1 + 8) + wordInt b (11 * 1 + 10) * p.y ≤ (zoneRecord t z).hi.y + wordNat b 36)
      ∧ ((zoneRecord t z).lo.z - wordNat b 36 ≤ word40 b (11 * 2 + 8) + wordInt b (11 * 2 + 10) * p.z
        ∧ word40 b (11 * 2 + 8) + wordInt b (11 * 2 + 10) * p.z ≤ (zoneRecord t z).hi.z + wordNat b 36) := by
    intro z
    unfold insideZone
    cases activeBank .zoneTable s <;> simp [inBox, envelope, cellTransform, axisRecord, and_assoc]
  have harm : (monitorArm x p s).mgdOf x = guardedRecord s x b p (s.mgdOf x) := by
    rw [monitorArm_eq hb]
    exact get_modify_self ..
  have hother : (monitorArm x p s).mgdOf (otherArm x) = s.mgdOf (otherArm x) := by
    rw [monitorArm_eq hb]
    exact get_modify_other _ _ (by cases x <;> decide)
  have hinside : ∀ z, z < 8 → insideOf (monitorArm x p s) x z
      = if insideZone (activeBank .zoneTable s) b (cellTransform b p) z then .inside else .outside := by
    intro z hz
    rw [insideOf, harm]
    exact insideOf_insideRecords hz
  have honsets : (guardedRecord s x b p (s.mgdOf x)).latches &&& ~~~(s.mgdOf x).latches = onsetsAt s x b p := rfl
  have hevu : (monitorArm x p s).evu = if onsetsAt s x b p = 0 then s.evu
      else (post (.intrusion x) (.zones (onsetsAt s x b p)) s).evu := by rw [monitorArm_eq hb]
  simp only [harm, honsets, ← hin]
  refine ⟨fun z hz => ⟨fun h => ?_, fun h => ?_, ?_, ?_⟩, hasCreepLimit_creepOf .., fun h => ?_, fun h => ?_, fun c => ?_,
    hother, ?_, ?_⟩
  · rw [hinside z hz, if_pos h]
  · rw [hinside z hz, if_neg h]
  · rw [← zoneEnabled_iff, ← holds_eq_false]
    exact getLsbD_latchesAt hz
  · exact (creepOf_getLsbD hz).trans (by simp [creepZones, guardedRecord, hz])
  · rw [hevu, if_neg h]
  · rw [hevu, if_pos h]
  · rw [← uncovered_iff]
    dsimp only [guardedRecord]
    split_ifs with h
    · simp [h]
    · simp only [hasCause_addCause, ne_eq, h, not_false_eq_true, and_true]
  · rw [monitorArm_eq hb]
  · rw [monitorArm_eq hb]

end Sys2Proof.Proofs
end

section
/-! The Event Unit (09): the selection of a pass, the detail words and what a posting does. -/
namespace Sys2Proof.Proofs

open Sys2Proof.Machine Sys2Proof.Laws

section
variable {s : State} {n m k : Nat}

/-- R166: a source of the first `k` that may be selected. -/
def MaySelect (s : State) (k n : Nat) : Prop :=
  n < k ∧ (sourceOf s n).detail ≠ none ∧ s.evu.reportLevel < (sourceOf s n).priority

/-- R167: a source comes before another in the selection. -/
def Precedes (s : State) (n m : Nat) : Prop :=
  (sourceOf s m).priority < (sourceOf s n).priority ∨ ((sourceOf s m).priority = (sourceOf s n).priority ∧ n < m)

/-- R167: the source selected of the first `k`. -/
def Selected (s : State) (k n : Nat) : Prop := MaySelect s k n ∧ ∀ m, MaySelect s k m → m ≠ n → Precedes s n m

theorem eligible_iff : eligible s.evu.reportLevel (sourceOf s n) = true
    ↔ (sourceOf s n).detail ≠ none ∧ s.evu.reportLevel < (sourceOf s n).priority := by
  simp [eligible, Option.isSome_iff_ne_none]

theorem maySelect_succ : MaySelect s (k + 1) n ↔ MaySelect s k n
    ∨ (n = k ∧ (sourceOf s k).detail ≠ none ∧ s.evu.reportLevel < (sourceOf s k).priority) := by
  unfold MaySelect
  constructor
  · rintro ⟨hn, h⟩
    rcases Nat.lt_succ_iff_lt_or_eq.1 hn with hlt | rfl
    · exact .inl ⟨hlt, h⟩
    · exact .inr ⟨rfl, h⟩
  · rintro (⟨hn, h⟩ | ⟨rfl, h⟩)
    · exact ⟨by omega, h⟩
    · exact ⟨by omega, h⟩

theorem betterSource_of_not {b : Option Nat} (h : ¬ eligible s.evu.reportLevel (sourceOf s n) = true) : betterSource s b n = b :=
  if_neg h

theorem betterSource_none (h : eligible s.evu.reportLevel (sourceOf s n) = true) : betterSource s none n = some n := if_pos h

theorem betterSource_some (h : eligible s.evu.reportLevel (sourceOf s n) = true) :
    betterSource s (some m) n = if (sourceOf s m).priority < (sourceOf s n).priority then some n else some m := if_pos h

/-- What the selection holds after the first `k` sources: none of them may be selected, or the one that comes first. -/
theorem selection_upTo (s : State) (k : Nat) :
    match (List.range k).foldl (betterSource s) none with
    | none => ∀ n, ¬ MaySelect s k n
    | some n => Selected s k n := by
  induction k with
  | zero => exact fun n h => absurd h.1 (Nat.not_lt_zero n)
  | succ k ih =>
    rw [List.range_succ, List.foldl_append, List.foldl_cons, List.foldl_nil]
    by_cases hk : eligible s.evu.reportLevel (sourceOf s k) = true
    · have hlast : MaySelect s (k + 1) k := maySelect_succ.2 (.inr ⟨rfl, eligible_iff.1 hk⟩)
      revert ih
      cases (List.range k).foldl (betterSource s) none with
      | none =>
        rw [betterSource_none hk]
        refine fun ih => ⟨hlast, fun m hm hne => ?_⟩
        rcases maySelect_succ.1 hm with hm | ⟨rfl, _⟩
        · exact absurd hm (ih m)
        · exact absurd rfl hne
      | some b =>
        rintro ⟨hb, hfirst⟩
        have hbk : b < k := hb.1
        rw [betterSource_some hk]
        by_cases hlt : (sourceOf s b).priority < (sourceOf s k).priority
        · rw [if_pos hlt]
          refine ⟨hlast, fun m hm hne => ?_⟩
          rcases maySelect_succ.1 hm with hm | ⟨rfl, _⟩
          · by_cases hmb : m = b
            · exact .inl (hmb ▸ hlt)
            · rcases hfirst m hm hmb with h | ⟨h, _⟩
              · exact .inl (h.trans hlt)
              · exact .inl (h ▸ hlt)
          · exact absurd rfl hne
        · rw [if_neg hlt]
          refine ⟨maySelect_succ.2 (.inl hb), fun m hm hne => ?_⟩
          rcases maySelect_succ.1 hm with hm | ⟨rfl, _⟩
          · exact hfirst m hm hne
          · rcases Nat.lt_or_eq_of_le (Nat.not_lt.1 hlt) with h | h
            · exact .inl h
            · exact .inr ⟨h, hbk⟩
    · have hsame : ∀ m, MaySelect s (k + 1) m ↔ MaySelect s k m := fun m => maySelect_succ.trans
        (or_iff_left (fun h => hk (eligible_iff.2 h.2)))
      rw [betterSource_of_not hk]
      simpa only [Selected, hsame] using ih

theorem selectedSource_eq_none (h : ∀ n, ¬ MaySelect s 17 n) : selectedSource s = none := by
  have := selection_upTo s 17
  unfold selectedSource
  cases hsel : (List.range 17).foldl (betterSource s) none with
  | none => rfl
  | some n =>
    rw [hsel] at this
    exact absurd this.1 (h n)

theorem Precedes.asymm (h : Precedes s n m) : ¬ Precedes s m n := by
  unfold Precedes at h ⊢
  omega

theorem selectedSource_eq_some (h : Selected s 17 n) : selectedSource s = some n := by
  have := selection_upTo s 17
  unfold selectedSource
  cases hsel : (List.range 17).foldl (betterSource s) none with
  | none =>
    rw [hsel] at this
    exact absurd h.1 (this n)
  | some m =>
    rw [hsel] at this
    by_contra hne
    have hmn : m ≠ n := fun h => hne (h ▸ rfl)
    exact (h.2 m this.1 hmn).asymm (this.2 n h.1 (Ne.symm hmn))

theorem sourceOf_modify {f : SourceState → SourceState} (hm : m < s.evu.sources.length) :
    (s.evu.sources.modify n f).getD m ⟨none, false, 0⟩ = if m = n then f (sourceOf s m) else sourceOf s m := by
  simp only [sourceOf, List.getD, List.getElem?_modify, List.getElem?_eq_getElem hm]
  by_cases h : m = n
  · simp [h]
  · simp [h, Ne.symm h]

theorem kindCode_eq (k : TableKind) : BitVec.ofNat 32 (kindCode k) = (kindByte k).setWidth 32 := by
  rcases k with _ | (_ | _) | _ | _ | _ <;> rfl

end

/-- Settles O51: the selection keeps, source after source, the one that comes first; a posting changes one entry. -/
theorem eventSelection : Obligations.EventSelection := by
  unfold Obligations.EventSelection
  refine ⟨fun s hlen => ⟨fun hnone => ?none, fun n d hn hd hfirst => ?selected⟩, ?words, fun src d s hlen => ?posting⟩
  case none =>
    rw [selectEvent, selectedSource_eq_none hnone]
    exact ⟨rfl, _, rfl, rfl⟩
  case selected =>
    have hsel : selectedSource s = some n := selectedSource_eq_some ⟨hn, hfirst⟩
    have hlt : n < s.evu.sources.length := by
      rw [hlen]
      exact hn.1
    have hcleared : clearAt n s = { s with evu := { s.evu with sources := s.evu.sources.set n ⟨none, false, (sourceOf s n).priority⟩ } } := by
      rw [clearAt, modify_eq_set (a := sourceOf s n) _ (by simp [sourceOf, List.getD, List.getElem?_eq_getElem hlt])]
      rfl
    rw [selectEvent, hsel]
    refine ⟨hcleared, ?_, fun m hm => ?_⟩
    · have hoverrun : BitVec.ofNat 8 (bitsNat [(sourceOf s n).overrun]) = if (sourceOf s n).overrun then 1 else 0 := by
        cases (sourceOf s n).overrun <;> rfl
      have hdetail : (sourceOf s n).detail = some d := hd
      simp only [eventBytes, hdetail, hoverrun]
      rfl
    · have hpending : (sourceOf (clearAt n s) m).detail.isSome = (decide (m ≠ n) && (sourceOf s m).detail.isSome) := by
        rw [sourceOf, clearAt, sourceOf_modify (by omega)]
        by_cases hmn : m = n <;> simp [hmn, clearSource]
      rw [pendingSet, testBit_bitsNat]
      simp only [List.getD, List.getElem?_map, List.getElem?_range hm, Option.map_some, Option.getD_some, hpending]
      rfl
  case words =>
    dsimp only
    refine ⟨fun zs => ?sets, fun ps => ?limits, rfl, rfl, rfl, rfl, fun t => rfl, fun c e m code => ?fault, fun kept new => ?furtherFault,
      rfl, rfl, rfl, rfl, fun code => ⟨?seated, ?opened, ?headFault, ?neverRead⟩, rfl, fun z => ⟨rfl, rfl⟩,
      fun seq => ⟨?noPositionA, ?noPositionB, ?fullA, ?fullB⟩, rfl, rfl, fun sat beyond sa ba => ⟨?numericA, ?numericB⟩,
      fun i r => ?rejected, fun i => rfl, fun i => rfl, fun p t => rfl, fun p => rfl,
      fun k sum o => ⟨?passed, ?failedSum, ?failedContent⟩, fun k g => ?activated, rfl, rfl⟩
    case fault => cases c <;> simp [detailWords, word, faultCode, tipCode]
    case furtherFault => cases kept <;> cases new <;> rfl
    case numericA | numericB => cases sat <;> cases beyond <;> rfl
    case rejected => cases r <;> rfl
    case passed | failedSum | failedContent | activated => simp [detailWords, word, checkWords, kindCode_eq]
    all_goals simp [detailWords, word, headWord, headCode, armCode, lostCode]
  case posting =>
    refine ⟨rfl, by simp [post, hlen], fun m hm => ?_⟩
    have hnumber := sourceOf_modify (n := sourceNumber src) (f := postTo d) (s := s) (m := m) (by omega)
    exact hnumber

end Sys2Proof.Proofs
end

section
/-! The steps of a change session and the readings of a pass (04, 4.4 to 4.6). -/
namespace Sys2Proof.Proofs

open Sys2Proof.Machine Sys2Proof.Laws

section
variable {s : State} {x : Arm} {t e p : Nat}

theorem dropComplete_not_due (h : (s.pccOf x).changeDue = false ∨ (sessionOf s x).state ≠ .drop) : dropComplete x s = s := by
  rcases h with h | h <;> simp [dropComplete, h]

theorem pickComplete_not_due {l : Bool} (h : (s.pccOf x).changeDue = false ∨ (sessionOf s x).state ≠ .pick) :
    pickComplete x l s = s := by
  rcases h with h | h <;> simp [pickComplete, h]

theorem dropComplete_due (hdue : (s.pccOf x).changeDue = true) (hk : (sessionOf s x).state = .drop) : dropComplete x s = dropDone x s := by
  simp [dropComplete, hdue, hk]

theorem pickComplete_due {l : Bool} (hdue : (s.pccOf x).changeDue = true) (hk : (sessionOf s x).state = .pick) :
    pickComplete x l s = pickDone x l s := by
  simp [pickComplete, hdue, hk]

theorem onPcc_congr {f g : PccArm → PccArm} (h : f (s.pccOf x) = g (s.pccOf x)) : s.onPcc x f = s.onPcc x g := by
  rw [State.onPcc, modify_congr h, State.onPcc]

theorem emptyHistory_not_due (h : (s.tcuOf x).touchDue ≠ .resolve) :
    emptyHistory x s = s.onCen x (fun c => { c with history := [] }) := if_neg h

theorem completeSession_eq {w : Bool} {o : Option Nat} (h : zoneOf s 0 = .held x false w) (ho : mountedTip s x = o) :
    completeSession x s = sessionEnd x (sessionRelease x w (post (.change x) (.done o) s)) := by
  rw [completeSession, ho, clearSession_eq_sessionEnd,
    askRelease_eq_sessionRelease (s := post (.change x) (.done o) s) (w := w) (by exact h)]

/-- The tip that stands on an arm once no other does. -/
theorem mountedTip_of_unique {o : Option Nat} (h : ∀ u, isTip u → ((tipOf s u).location = .onArm x ↔ o = some u))
    (ho : ∀ u ∈ o, isTip u) : mountedTip s x = o := by
  cases hm : mountedTip s x with
  | none =>
    cases o with
    | none => rfl
    | some u => exact absurd ((h u (ho u rfl)).2 rfl) (mountedTip_eq_none hm (ho u rfl))
  | some u =>
    obtain ⟨hu, hloc⟩ := mountedTip_eq_some hm
    exact ((h u hu).1 hloc).symm

theorem mountedTip_of_dropped (hw : Whole s) (ht : isTip t) (hon : ∀ u, isTip u → (tipOf s u).location = .onArm x → u = t) :
    mountedTip (moveTip t (.port p) s) x = none := by
  refine mountedTip_of_unique (fun u hu => ?_) (fun u hu => by cases hu)
  rw [tipOf_moveTip hw ht hu]
  by_cases hut : u = t
  · simp [hut]
  · simp only [hut, if_false, reduceCtorEq, iff_false]
    exact fun hloc => hut (hon u hu hloc)

theorem mountedTip_of_picked (hw : Whole s) (ht : isTip t) (hbare : ∀ u, isTip u → (tipOf s u).location ≠ .onArm x) :
    mountedTip (moveTip t (.onArm x) s) x = some t := by
  refine mountedTip_of_unique (fun u hu => ?_) (fun u hu => by cases hu; exact ht)
  rw [tipOf_moveTip hw ht hu]
  by_cases hut : u = t
  · simp [hut]
  · simp [hut, Ne.symm hut, hbare u hu]

/-- R80: the tips that a session in DROP and in PICK expects. -/
theorem dropped_only (hn : NumbersBounded s) (h : TipsInPlace s) (hk : (sessionOf s x).state = .drop)
    (htip : (sessionOf s x).dropTip = some t) {u : Nat} (hu : isTip u) (hloc : (tipOf s u).location = .onArm x) : u = t := by
  have hseated := (seated_iff (Whole.of_numbersBounded hn)).1 h
  have := ((hseated.ready x (fun h => h)).mounted (.inr hk) u).1 ((rackOf_loc hu).trans hloc)
  rw [show ((rackOf (placesOf s)).session x).dropTip = some t from htip] at this
  exact (Option.some.inj this).symm

theorem picks_bare (hn : NumbersBounded s) (h : TipsInPlace s) (hk : (sessionOf s x).state = .pick) {u : Nat} (hu : isTip u) :
    (tipOf s u).location ≠ .onArm x := by
  have hseated := (seated_iff (Whole.of_numbersBounded hn)).1 h
  exact fun hloc => (hseated.ready x (fun h => h)).bare hk u ((rackOf_loc hu).trans hloc)

theorem picks_from (hn : NumbersBounded s) (h : TipsInPlace s) (hk : (sessionOf s x).state = .pick)
    (he : (sessionOf s x).pickTip = some e) (hp : (sessionOf s x).pickPort = some p) :
    isTip e ∧ (tipOf s e).location = .port p ∧ portOf s p = .holds e ∧ isPort p := by
  have hw := Whole.of_numbersBounded hn
  have hseated := (seated_iff hw).1 h
  have hloc := (hseated.ready x (fun h => h)).stands (.inr (.inr hk)) e p he hp
  have htip : isTip e := isTip_of_loc (s := s) (by simp [hloc])
  have hholds : portOf s p = .holds e := (hseated.holds e p).2 hloc
  exact ⟨htip, (rackOf_loc htip).symm.trans hloc, hholds, isPort_of_port hw (by simp [hholds])⟩

theorem dropDone_goesOn (ht : (sessionOf s x).dropTip = some t) (hp : (sessionOf s x).dropPort = some p)
    (htouch : (s.tcuOf x).touchDue ≠ .resolve) (hpick : (sessionOf s x).pickTip ≠ none) :
    dropDone x s = ((setPort p (.holds t) (moveTip t (.port p) s)).onCen x (fun c => { c with history := [] })).onPcc x (fun q =>
      { q with
        session := { q.session with state := .pick, timer := some (stationField (·.stepTimeout) s) }, changeDue := false }) := by
  have hempty : emptyHistory x (setPort p (.holds t) (moveTip t (.port p) s))
      = (setPort p (.holds t) (moveTip t (.port p) s)).onCen x (fun c => { c with history := [] }) :=
    emptyHistory_not_due htouch
  rw [dropDone, ht, hp]
  dsimp only
  rw [if_pos (Option.isSome_iff_ne_none.2 hpick), hempty]
  cases x <;> rfl

theorem dropDone_ends (ht : (sessionOf s x).dropTip = some t) (hp : (sessionOf s x).dropPort = some p)
    (htouch : (s.tcuOf x).touchDue ≠ .resolve) (hpick : (sessionOf s x).pickTip = none) :
    dropDone x s = completeSession x
      ((setPort p (.holds t) (moveTip t (.port p) s)).onCen x (fun c => { c with history := [] })) := by
  have hempty : emptyHistory x (setPort p (.holds t) (moveTip t (.port p) s))
      = (setPort p (.holds t) (moveTip t (.port p) s)).onCen x (fun c => { c with history := [] }) :=
    emptyHistory_not_due htouch
  rw [dropDone, ht, hp]
  dsimp only
  rw [if_neg (by simp [hpick]), hempty]

theorem tipWithCode_eq_none {code : BitVec 16}
    (h : code ≠ 0 → ∀ u, isTip u → u ≠ e → (tipOf s u).present = true → (tipOf s u).code ≠ code) : tipWithCode s e code = none := by
  cases hm : tipWithCode s e code with
  | none => rfl
  | some m =>
    obtain ⟨htip, hpresent, hne, hcode⟩ := tipWithCode_spec hm
    have hzero : code ≠ 0 := fun h0 => by simp [tipWithCode, h0] at hm
    exact absurd hcode (h hzero m htip hne hpresent)

theorem pickOutcome_matched {code : BitVec 16}
    (h : code ≠ 0 → ∀ u, isTip u → u ≠ e → (tipOf s u).present = true → (tipOf s u).code ≠ code)
    (hcode : code = (tipOf s e).code ∨ (tipOf s e).code = 0) : pickOutcome s e code = .matched := by
  simp only [pickOutcome, tipWithCode_eq_none h, if_pos hcode]

theorem pickOutcome_unidentified {code : BitVec 16}
    (h : code ≠ 0 → ∀ u, isTip u → u ≠ e → (tipOf s u).present = true → (tipOf s u).code ≠ code)
    (hcode : ¬ (code = (tipOf s e).code ∨ (tipOf s e).code = 0)) : pickOutcome s e code = .unidentified := by
  simp only [pickOutcome, tipWithCode_eq_none h, if_neg hcode]

theorem pickDone_matched {l : Bool} (he : (sessionOf s x).pickTip = some e) (hp : (sessionOf s x).pickPort = some p)
    (htouch : (s.tcuOf x).touchDue ≠ .resolve) (hm : pickOutcome s e (s.pccOf x).codeLast = .matched) :
    pickDone x l s = completeSession x
      ((setPort p .empty (moveTip e (.onArm x) s)).onCen x (fun c => { c with history := [] })) := by
  have hempty : emptyHistory x (setPort p .empty (moveTip e (.onArm x) s))
      = (setPort p .empty (moveTip e (.onArm x) s)).onCen x (fun c => { c with history := [] }) :=
    emptyHistory_not_due htouch
  simp only [pickDone, he, hp, hm, hempty]

end

section
variable {s : State} {x : Arm} {input : Memory 8} {off p : Nat}

/-! ### The readings of a pass -/

theorem headConsistent_iff {h : HeadState} {code : BitVec 16} : headConsistent s x h code = true
    ↔ ∀ u ∈ mountedTip s x, h = .seated ∧ ((tipOf s u).code = 0 ∨ (tipOf s u).code = code) := by
  unfold headConsistent
  cases mountedTip s x <;> simp

theorem completesStep_iff {c : Session} {h : HeadState} {rack : Option (BitVec 12)} : completesStep c h rack = true
    ↔ (c.state = .drop ∧ h = .opened ∧ ∃ p ∈ c.dropPort, ∃ r ∈ rack, r.getLsbD p = true)
      ∨ (c.state = .pick ∧ h = .seated ∧ ∃ p ∈ c.pickPort, ∃ r ∈ rack, r.getLsbD p = false) := by
  obtain ⟨state, dropTip, dropPort, pickTip, pickPort, timer, fault⟩ := c
  cases rack with
  | none => cases state <;> simp [completesStep]
  | some r => cases state <;> cases dropPort <;> cases pickPort <;> simp [completesStep, showsOccupied]

/-- The rack reading of a pass shows what the rack slot's bytes say. -/
theorem shown_iff {v : Bool} : (∃ r ∈ readRack (activeBank .slotMap s) input, r.getLsbD p = v)
    ↔ ∃ o, SlotAt s 4 0 o ∧ marked input o ∧ (BitVec.ofNat 12 (Memory.readLE input (o + 1) 2)).getLsbD p = v := by
  have hplace (o : Nat) : slotPlace s .rackStatus = some o ↔ SlotAt s 4 0 o := slotPlace_eq_some (n := .rackStatus) trivial
  simp only [readRack_eq, slotRead, Option.mem_def, Option.map_eq_some_iff, Option.filter_eq_some_iff, hplace]
  constructor
  · rintro ⟨_, ⟨o, ⟨hat, hm⟩, rfl⟩, hv⟩
    exact ⟨o, hat, hm, hv⟩
  · rintro ⟨o, hat, hm, hv⟩
    exact ⟨_, ⟨o, ⟨hat, hm⟩, rfl⟩, hv⟩

theorem readStatus_unread (h : readProbe (activeBank .slotMap s) input x = none) : readStatus x input s = s := by
  simp only [readStatus, h]

theorem sessionOf_reading (o : Option HeadState) (code : BitVec 16) :
    sessionOf (s.onPcc x (fun p => { p with headLast := o, codeLast := code })) x = sessionOf s x := by
  rw [sessionOf, onPcc_pccOf]
  rfl

theorem readStatus_idle {h : HeadState} {code : BitVec 16} (hr : readProbe (activeBank .slotMap s) input x = some (h, code))
    (hk : (sessionOf s x).state = .idle) : readStatus x input s
      = whenDo ((s.pccOf x).consistent && !headConsistent s x h code) (post (.change x) (.head (some h) code))
          (whenDo (!headConsistent s x h code) (raise x .head) (s.onPcc x (fun p =>
            { p with headLast := some h, codeLast := code, consistent := headConsistent s x h code }))) := by
  have hidle : sessionIdle (s.onPcc x (fun p => { p with headLast := some h, codeLast := code })) x = true := by
    rw [sessionIdle, sessionOf_reading, hk]
    rfl
  have hcons : headConsistent (s.onPcc x (fun p => { p with headLast := some h, codeLast := code })) x h code
      = headConsistent s x h code := rfl
  simp only [readStatus, hr, hidle, if_true, supervise, hcons, onPcc_pccOf]
  rw [State.onPcc, State.onPcc, modify_modify]
  rfl

theorem readStatus_session {h : HeadState} {code : BitVec 16} (hr : readProbe (activeBank .slotMap s) input x = some (h, code))
    (hk : (sessionOf s x).state ≠ .idle) : readStatus x input s = s.onPcc x (fun p =>
      { p with headLast := some h, codeLast := code,
               changeDue := completesStep (sessionOf s x) h (readRack (activeBank .slotMap s) input) }) := by
  have hidle : sessionIdle (s.onPcc x (fun p => { p with headLast := some h, codeLast := code })) x = false := by
    rw [sessionIdle, sessionOf_reading, decide_eq_false hk]
  simp only [readStatus, hr, hidle, sessionOf_reading]
  rw [State.onPcc, State.onPcc, modify_modify]
  rfl

theorem takeRack_unread {spared : List Nat} (h : readRack (activeBank .slotMap s) input = none) (t : RackStep) :
    takeRack input spared t s = s := by
  simp only [takeRack, h]

theorem exempt_iff : exempt s p = true ↔ ∃ x, (sessionOf s x).state ≠ .idle
    ∧ ((sessionOf s x).dropPort = some p ∨ (sessionOf s x).pickPort = some p) := by
  simp only [exempt, Bool.or_eq_true, Bool.and_eq_true, decide_eq_true_eq]
  constructor
  · rintro (h | h)
    · exact ⟨.a, h⟩
    · exact ⟨.b, h⟩
  · rintro ⟨_ | _, h⟩
    · exact .inl h
    · exact .inr h

theorem monitorPort_kept {r : BitVec 12} (hholds : ∀ u, portOf s p = .holds u → r.getLsbD p = true)
    (hempty : portOf s p = .empty → r.getLsbD p = false) : monitorPort r p s = s := by
  unfold monitorPort
  split_ifs
  · rfl
  · split
    · next u hu hshows => exact absurd (hholds u hu) (by simpa [showsOccupied] using hshows)
    · next hu hshows => exact absurd (hempty hu) (by simpa [showsOccupied] using hshows)
    · rfl

theorem monitorPort_missing {r : BitVec 12} {u : Nat} (hex : exempt s p = false) (hu : portOf s p = .holds u) (hr : r.getLsbD p = false) :
    monitorPort r p s = post .rack (.missing p u) (setPort p .unverified (moveTip u .unknown s)) := by
  simp only [monitorPort, hex, hu, showsOccupied, hr]
  rfl

theorem monitorPort_occupied {r : BitVec 12} (hex : exempt s p = false) (hu : portOf s p = .empty) (hr : r.getLsbD p = true) :
    monitorPort r p s = post .rack (.occupied p) (setPort p .unverified s) := by
  simp only [monitorPort, hex, hu, showsOccupied, hr]
  rfl

end

/-- Settles O40: what completes a step, the two completions, the supervision of the head and the monitor of the rack. -/
theorem changeStepsComplete : Obligations.ChangeStepsComplete := by
  unfold Obligations.ChangeStepsComplete
  refine ⟨fun s x => ⟨fun h => ?dropNotDue, fun t p w hn hplace hdue hk htouch ht hp htip hzone => ?drop⟩,
    fun s x headLast => ⟨fun h => ?pickNotDue, fun e p w hn hplace hdue hk htouch he hp hzone hother hcode => ?pick⟩,
    fun s x input => ⟨fun h => ?unread, fun off hat hm => ?read⟩,
    fun s input spared => ⟨fun h => ?rackUnread, fun off hat hm => ?rack⟩, fun s input => ?steps⟩
  case dropNotDue => exact congrArg Host.Outcome.next (dropComplete_not_due h)
  case pickNotDue => exact congrArg Host.Outcome.next (pickComplete_not_due h)
  case drop =>
    have hdone : exec (.dropComplete x) s = .next (dropDone x s) := congrArg Host.Outcome.next (dropComplete_due hdue hk)
    refine ⟨fun hpick => hdone.trans (congrArg Host.Outcome.next (dropDone_goesOn ht hp htouch hpick)), fun hpick => ?_⟩
    rw [hdone, dropDone_ends ht hp htouch hpick]
    refine congrArg Host.Outcome.next (completeSession_eq hzone ?_)
    exact mountedTip_of_dropped (p := p) (Whole.of_numbersBounded hn) htip (fun u hu hloc => dropped_only hn hplace hk ht hu hloc)
  case pick =>
    have htip := (picks_from hn hplace hk he hp).1
    refine (congrArg Host.Outcome.next ((pickComplete_due hdue hk).trans
      (pickDone_matched he hp htouch (pickOutcome_matched hother hcode)))).trans ?_
    refine congrArg Host.Outcome.next (completeSession_eq hzone ?_)
    exact mountedTip_of_picked (Whole.of_numbersBounded hn) htip (fun u hu => picks_bare hn hplace hk hu)
  case unread =>
    refine readStatus_unread ?_
    rw [readProbe_eq, slotRead_of_slotUnread (n := .probeStatus x) trivial h]
    rfl
  case read =>
    intro head code read fits shown c completes kept
    have hreading : readProbe (activeBank .slotMap s) input x = some (head, code) := by
      have hhead : ∀ v : Byte, (if v = 0 then HeadState.seated else if v = 1 then .opened else .fault)
          = (match v.toNat with | 0 => .seated | 1 => .opened | _ => .fault) := by decide
      exact (readProbe_eq x).trans ((congrArg (Option.map _) (slotRead_of_slotAt (n := .probeStatus x) trivial hat hm)).trans
        (congrArg (fun h => some (h, code)) (hhead _)))
    have hfits : headConsistent s x head code = true ↔ fits := headConsistent_iff
    have hcompletes : completesStep c head (readRack (activeBank .slotMap s) input) = true ↔ completes := by
      simp only [completesStep_iff, shown_iff]
      rfl
    have hread {f : PccArm → PccArm} {consistent due : Bool} (h : f (s.pccOf x) = { s.pccOf x with
        headLast := some head, codeLast := code, consistent := consistent, changeDue := due }) :
        s.onPcc x f = read consistent due := onPcc_congr h
    refine ⟨fun hk hfit => ?_, fun hk hfit hkept => ?_, fun hk hfit hkept => ?_, fun hk hdone => ?_, fun hk hdone => ?_⟩
    · rw [readStatus_idle hreading hk, hfits.2 hfit, Bool.not_true, Bool.and_false]
      exact hread rfl
    · rw [readStatus_idle hreading hk, Bool.eq_false_iff.2 (fun h => hfit (hfits.1 h)), show (s.pccOf x).consistent = false from hkept]
      exact congrArg (raise x .head) (hread rfl)
    · rw [readStatus_idle hreading hk, Bool.eq_false_iff.2 (fun h => hfit (hfits.1 h)), show (s.pccOf x).consistent = true from hkept]
      exact congrArg (fun u => post (.change x) (.head (some head) code) (raise x .head u)) (hread rfl)
    · rw [readStatus_session hreading hk, hcompletes.2 hdone]
      exact hread rfl
    · rw [readStatus_session hreading hk, Bool.eq_false_iff.2 (fun h => hdone (hcompletes.1 h))]
      exact hread rfl
  case rackUnread =>
    have hnone : readRack (activeBank .slotMap s) input = none := by
      rw [readRack_eq, slotRead_of_slotUnread (n := .rackStatus) trivial h]
      rfl
    exact ⟨takeRack_unread hnone _, fun p => takeRack_unread hnone _⟩
  case rack =>
    have hread : readRack (activeBank .slotMap s) input = some (BitVec.ofNat 12 (Memory.readLE input (off + 1) 2)) := by
      rw [readRack_eq, slotRead_of_slotAt (n := .rackStatus) trivial hat hm]
      rfl
    have htake (p : Nat) (h : p ∉ spared) : takeRack input spared (.port p) s
        = monitorPort (BitVec.ofNat 12 (Memory.readLE input (off + 1) 2)) p s := by
      simp [takeRack, hread, h]
    have hunnamed {p : Nat} (h : ¬ ∃ x, (sessionOf s x).state ≠ .idle
        ∧ ((sessionOf s x).dropPort = some p ∨ (sessionOf s x).pickPort = some p)) : exempt s p = false :=
      Bool.eq_false_iff.2 (fun hex => h (exempt_iff.1 hex))
    refine ⟨?_, fun p hp => ?_, fun p hspared hname => ⟨fun u hu hshows => ?_, fun hu hshows => ?_, fun hholds hempty => ?_⟩⟩
    · simp only [takeRack, hread]
    · by_cases hs : p ∈ spared
      · simp [takeRack, hread, hs]
      · have hex : exempt s p = true := exempt_iff.2 (hp.resolve_left hs)
        exact (htake p hs).trans (if_pos hex)
    · exact (htake p hspared).trans (monitorPort_missing (hunnamed hname) hu hshows)
    · exact (htake p hspared).trans (monitorPort_occupied (hunnamed hname) hu hshows)
    · exact (htake p hspared).trans (monitorPort_kept hholds hempty)
  case steps =>
    rw [rackPass, rackSteps, arrange_nil, List.foldl_cons, List.foldl_map]

end Sys2Proof.Proofs
end

section
/-! A pick that brings the wrong tip (04, 4.4; R86, R87, R95): what becomes of the two arms. -/
namespace Sys2Proof.Proofs

open Sys2Proof.Machine Sys2Proof.Laws

section
variable {s : State} {x y : Arm}

/-! ### What the other arm undergoes -/

/-- R25, R26: the trigger's record once the arm's history is emptied. -/
def emptied (limit : Nat) (u : TcuArm) : TcuArm :=
  if u.touchDue = .resolve then
    match u.trigger with
    | .latched l => { u with trigger := .latched { l with age := l.age + 1 }, touchDue := if limit ≤ l.age + 1 then .late else .none }
    | _ => { u with touchDue := .none }
  else u

theorem emptyHistory_eq : emptyHistory x s = { s with
    cen := s.cen.modify x (fun c => { c with history := [] })
    tcu := { s.tcu with arm := s.tcu.arm.modify x (emptied (stationField (·.latchLimit) s)) } } := by
  by_cases hdue : (s.tcuOf x).touchDue = .resolve
  · have hage : emptyHistory x s = ageLatch x (s.onCen x (fun c => { c with history := [] })) := if_pos hdue
    have htrigger : triggerOf (s.onCen x (fun c => { c with history := [] })) x = (s.tcuOf x).trigger := rfl
    have hemptied : ∀ f : TcuArm → TcuArm, f (s.tcuOf x) = emptied (stationField (·.latchLimit) s) (s.tcuOf x) →
        (s.onCen x (fun c => { c with history := [] })).onTcu x f = { s with
          cen := s.cen.modify x (fun c => { c with history := [] })
          tcu := { s.tcu with arm := s.tcu.arm.modify x (emptied (stationField (·.latchLimit) s)) } } := fun f hf => by
      rw [← modify_congr hf]
      rfl
    cases ht : (s.tcuOf x).trigger with
    | latched l =>
      rw [hage, ageLatch_latched (htrigger.trans ht)]
      refine hemptied _ ?_
      rw [emptied, if_pos hdue, ht]
      rfl
    | _ =>
      rw [hage, ageLatch_of_not_latched (by rw [armLatched, htrigger, ht]; rfl)]
      refine hemptied _ ?_
      rw [emptied, if_pos hdue, ht]
  · have hsame : s.tcu.arm.modify x (emptied (stationField (·.latchLimit) s)) = s.tcu.arm := modify_self (if_neg hdue)
    rw [emptyHistory_not_due hdue, hsame]
    rfl

/-- R95: the trigger's record of an arm that loses its tip. -/
def bereft (limit : Nat) (u : TcuArm) : TcuArm := { emptied limit u with trigger := standDown (emptied limit u).trigger }

theorem losesTip_eq : losesTip y s = { s with
    cen := s.cen.modify y (fun c => { c with history := [] })
    tcu := { s.tcu with arm := s.tcu.arm.modify y (bereft (stationField (·.latchLimit) s)) }
    mgd := { s.mgd with arm := s.mgd.arm.modify y (fun g => { g with causes := addCause g.causes .head }) } } := by
  rw [losesTip, emptyHistory_eq, onTrigger, State.onTcu]
  simp only [modify_modify]
  rfl

/-- R105: the zones once the arm's wait on zone 0 is withdrawn. -/
def unwaited (y : Arm) (s : State) : List Zone := s.mgd.zones.set 0 (match zoneOf s 0 with
  | .held h r w => .held h r (w && decide (h = y))
  | .free => .free)

theorem withdrawWait_eq : withdrawWait y 0 s = { s with mgd := { s.mgd with zones := unwaited y s } } := by
  change _ = setZone 0 (match zoneOf s 0 with
    | .held h r w => .held h r (w && decide (h = y))
    | .free => .free) s
  unfold withdrawWait
  cases hz : zoneOf s 0 with
  | free => exact (setZone_self hz).symm
  | held h r w =>
    dsimp only
    by_cases hy : h = y
    · have hne : h ≠ otherArm y := hy ▸ (otherArm_ne h).symm
      rw [if_neg hne, decide_eq_true hy, Bool.and_true, setZone_self hz]
    · rw [if_pos (ne_iff_otherArm.1 hy), decide_eq_false hy, Bool.and_false]

theorem cancelByMismatch_eq : cancelByMismatch y s = { s with
    tcu := { s.tcu with arm := s.tcu.arm.modify y (fun u => { u with trigger := restored u.trigger }) }
    pcc := { s.pcc with arm := s.pcc.arm.modify y (fun p => { p with session := Session.idle, changeDue := false }) }
    mgd := { zones := unwaited y s, arm := s.mgd.arm.modify y (fun g => { g with causes := addCause g.causes .change }) } } := by
  rw [cancelByMismatch, cancelWaiting, withdrawWait_eq]
  rfl

/-- R95: the other arm's records, where it loses its tip and where its session is cancelled. -/
def disturbedTcu (limit : Nat) (lost cancelled : Bool) (u : TcuArm) : TcuArm :=
  let v := if lost then bereft limit u else u
  if cancelled then { v with trigger := restored v.trigger } else v

/-- R95: the session and the head of the other arm. -/
def disturbedPcc (lost cancelled : Bool) (p : PccArm) : PccArm :=
  { p with
    session := if cancelled then Session.idle else p.session
    changeDue := p.changeDue && !cancelled
    consistent := p.consistent && !(lost && (cancelled || decide (p.session.state = .idle))) }

/-- R95: the hold causes of the other arm. -/
def disturbedMgd (lost cancelled : Bool) (g : MgdArm) : MgdArm :=
  { g with causes := g.causes ||| (if lost then causeOnly .head else 0) ||| (if cancelled then causeOnly .change else 0) }

/-- R87, R95: the postings at the other arm's CHANGE source, in the order the world chooses (log 29). -/
def mismatchPosts (y : Arm) (lost cancelled headLast : Bool) (s : State) : State :=
  let head := whenDo lost (post (.change y) (.head (s.pccOf y).headLast (s.pccOf y).codeLast))
  let cancel := whenDo cancelled (post (.change y) .cancelled)
  if headLast then head (cancel s) else cancel (head s)

/-- The block with the other arm disturbed. -/
def disturbed (y : Arm) (lost cancelled headLast : Bool) (s : State) : State :=
  { s with
    cen := s.cen.modify y (fun c => if lost then { c with history := [] } else c)
    tcu := { s.tcu with arm := s.tcu.arm.modify y (disturbedTcu (stationField (·.latchLimit) s) lost cancelled) }
    pcc := { s.pcc with arm := s.pcc.arm.modify y (disturbedPcc lost cancelled) }
    mgd := { zones := if cancelled then unwaited y s else s.mgd.zones, arm := s.mgd.arm.modify y (disturbedMgd lost cancelled) }
    evu := (mismatchPosts y lost cancelled headLast s).evu }

theorem modify_id {α : Type} (p : PerArm α) {f : α → α} (h : ∀ v, f v = v) : p.modify x f = p := modify_self (h _)

theorem whenDo_losesTip (lost : Bool) : whenDo lost (losesTip y) s = { s with
    cen := s.cen.modify y (fun c => if lost then { c with history := [] } else c)
    tcu := { s.tcu with arm := s.tcu.arm.modify y (fun u => if lost then bereft (stationField (·.latchLimit) s) u else u) }
    mgd := { s.mgd with arm := s.mgd.arm.modify y (fun g => { g with
      causes := g.causes ||| (if lost then causeOnly .head else 0) }) } } := by
  cases lost with
  | false =>
    rw [modify_id s.cen (fun _ => by simp), modify_id s.tcu.arm (fun _ => by simp), modify_id s.mgd.arm (fun g => by simp)]
    rfl
  | true => exact losesTip_eq

theorem whenDo_cancelByMismatch (cancelled : Bool) : whenDo cancelled (cancelByMismatch y) s = { s with
    tcu := { s.tcu with arm := s.tcu.arm.modify y (fun u => if cancelled then { u with trigger := restored u.trigger } else u) }
    pcc := { s.pcc with arm := s.pcc.arm.modify y (fun p => { p with
      session := if cancelled then Session.idle else p.session, changeDue := p.changeDue && !cancelled }) }
    mgd := { zones := if cancelled then unwaited y s else s.mgd.zones, arm := s.mgd.arm.modify y (fun g => { g with
      causes := g.causes ||| (if cancelled then causeOnly .change else 0) }) } } := by
  cases cancelled with
  | false =>
    rw [modify_id s.tcu.arm (fun _ => by simp), modify_id s.pcc.arm (fun p => by simp), modify_id s.mgd.arm (fun g => by simp)]
    rfl
  | true =>
    rw [modify_congr (p := s.pcc.arm) (g := fun p => { p with session := Session.idle, changeDue := false }) (by simp)]
    exact cancelByMismatch_eq

theorem whenDo_markHead (lost : Bool) : whenDo lost (markHead y) s = { s with
    pcc := { s.pcc with arm := s.pcc.arm.modify y (fun p => { p with
      consistent := p.consistent && !(lost && decide (p.session.state = .idle)) }) } } := by
  cases lost with
  | false =>
    rw [modify_id s.pcc.arm (fun p => by simp)]
    rfl
  | true =>
    by_cases hidle : (s.pccOf y).session.state = .idle
    · have hmark : markHead y s = s.onPcc y (fun p => { p with consistent := false }) := if_pos (decide_eq_true hidle)
      refine hmark.trans (onPcc_congr ?_)
      simp [hidle]
    · have hmark : markHead y s = s := if_neg (fun h => hidle (of_decide_eq_true h))
      rw [modify_self (f := fun p : PccArm => { p with consistent := p.consistent && !(true && decide (p.session.state = .idle)) })
        (by simp [show s.pcc.arm.get y = s.pccOf y from rfl, hidle])]
      exact hmark

theorem twoPosts_eq {u : State} {c d : Bool} {a b : EventSource} {v w : Detail} (h : u.evu = s.evu) :
    whenDo c (post a v) (whenDo d (post b w) u) = { u with evu := (whenDo c (post a v) (whenDo d (post b w) s)).evu } := by
  rw [← whenDo_post_evu (u := whenDo d (post b w) u) (whenDo_post_evu h)]
  cases c <;> cases d <;> rfl

/-- The postings add to the events alone, whatever else has changed before them. -/
theorem mismatchPosts_eq {lost cancelled headLast : Bool} {u : State} (hevu : u.evu = s.evu)
    (hhead : (u.pccOf y).headLast = (s.pccOf y).headLast) (hcode : (u.pccOf y).codeLast = (s.pccOf y).codeLast) :
    mismatchPosts y lost cancelled headLast u = { u with evu := (mismatchPosts y lost cancelled headLast s).evu } := by
  unfold mismatchPosts
  rw [hhead, hcode]
  cases headLast <;> exact twoPosts_eq hevu

theorem posts_of_disturb {lost cancelled headLast : Bool} : (if headLast then
      whenDo lost (postHead y) (whenDo cancelled (post (.change y) .cancelled) s)
    else whenDo cancelled (post (.change y) .cancelled) (whenDo lost (postHead y) s)) = mismatchPosts y lost cancelled headLast s := by
  cases headLast <;> cases lost <;> cases cancelled <;> rfl

/-- The block with the other arm disturbed, before the postings and the mark of its head. -/
theorem whenDo_cancel_losesTip (lost cancelled : Bool) : whenDo cancelled (cancelByMismatch y) (whenDo lost (losesTip y) s) =
    { s with
      cen := s.cen.modify y (fun c => if lost then { c with history := [] } else c)
      tcu := { s.tcu with arm := s.tcu.arm.modify y (disturbedTcu (stationField (·.latchLimit) s) lost cancelled) }
      pcc := { s.pcc with arm := s.pcc.arm.modify y (fun p => { p with
        session := if cancelled then Session.idle else p.session, changeDue := p.changeDue && !cancelled }) }
      mgd := { zones := if cancelled then unwaited y s else s.mgd.zones, arm := s.mgd.arm.modify y (disturbedMgd lost cancelled) } } := by
  rw [whenDo_cancelByMismatch, whenDo_losesTip]
  dsimp only
  rw [modify_modify, modify_modify]
  rfl

theorem disturb_eq {m : Nat} {lost headLast : Bool} :
    disturb y m lost headLast s = disturbed y lost (expectsTip s y m) headLast s := by
  unfold disturb
  dsimp only
  rw [posts_of_disturb, whenDo_cancel_losesTip, mismatchPosts_eq (s := s) (by exact rfl), whenDo_markHead]
  · dsimp only
    rw [modify_modify, disturbed]
    have hpcc : s.pcc.arm.modify y (disturbedPcc lost (expectsTip s y m)) = s.pcc.arm.modify y ((fun p : PccArm => { p with
        consistent := p.consistent && !(lost && decide (p.session.state = .idle)) }) ∘ (fun p => { p with
        session := if expectsTip s y m then Session.idle else p.session, changeDue := p.changeDue && !expectsTip s y m })) := by
      refine modify_congr ?_
      cases expectsTip s y m <;> simp [disturbedPcc, Session.idle]
    rw [hpcc]
  · simp only [State.pccOf, get_modify_self]
  · simp only [State.pccOf, get_modify_self]

end

section
variable {s : State} {x : Arm} {e p m : Nat}

theorem pickDone_unidentified {l : Bool} (he : (sessionOf s x).pickTip = some e) (hp : (sessionOf s x).pickPort = some p)
    (hm : pickOutcome s e (s.pccOf x).codeLast = .unidentified) : pickDone x l s
      = enterFault x .identity (.fault .identity (some e) none (s.pccOf x).codeLast) (setPort p .empty (moveTip e .unknown s)) := by
  simp only [pickDone, he, hp, hm]

/-- The block with the tips and the ports as a pick of tip `m` leaves them (R87). -/
def mispicked (x : Arm) (e p m : Nat) (s : State) : State :=
  unverifyFormer (tipOf s m).location p (setPort p .empty (moveTip e .unknown (moveTip m (.onArm x) s)))

theorem pickDone_identified {l : Bool} (he : (sessionOf s x).pickTip = some e) (hp : (sessionOf s x).pickPort = some p)
    (hm : pickOutcome s e (s.pccOf x).codeLast = .identified m) : pickDone x l s
      = enterFault x .identity (.fault .identity (some e) (some m) (s.pccOf x).codeLast)
          (disturb (otherArm x) m (decide ((tipOf s m).location = .onArm (otherArm x))) l (emptyHistory x (mispicked x e p m s))) := by
  simp only [pickDone, he, hp, hm]
  rfl

theorem mispicked_eq : mispicked x e p m s = { s with pcc := { s.pcc with
    tips := (mispicked x e p m s).pcc.tips, ports := (mispicked x e p m s).pcc.ports } } := by
  unfold mispicked unverifyFormer
  split
  · split <;> rfl
  · rfl

/-- The tip that carries the code read is the one identified: no two present tips share it (R72). -/
theorem pickOutcome_of_carried {code : BitVec 16} (h : TipsInPlace s) (hcode : code ≠ 0) (htip : isTip m)
    (hne : m ≠ e) (hpresent : (tipOf s m).present = true) (hm : (tipOf s m).code = code) : pickOutcome s e code = .identified m := by
  have hfound : tipWithCode s e code = some m := by
    cases hf : tipWithCode s e code with
    | none => exact absurd hm (tipWithCode_none hf hcode htip hpresent hne)
    | some u =>
      obtain ⟨hu, hupresent, -, hucode⟩ := tipWithCode_spec hf
      obtain ⟨-, -, -, -, hdistinct, -⟩ := h
      rw [hdistinct u (by omega) m (by omega) hu htip hupresent hpresent (hucode ▸ hcode) (hucode.trans hm.symm)]
  simp only [pickOutcome, hfound]

theorem emptyHistory_mispicked : emptyHistory x (mispicked x e p m s) = { s with
    pcc := { s.pcc with tips := (mispicked x e p m s).pcc.tips, ports := (mispicked x e p m s).pcc.ports }
    cen := s.cen.modify x (fun c => { c with history := [] })
    tcu := { s.tcu with arm := s.tcu.arm.modify x (emptied (stationField (·.latchLimit) s)) } } := by
  have heq := mispicked_eq (s := s) (x := x) (e := e) (p := p) (m := m)
  generalize mispicked x e p m s = u at heq
  rw [heq, emptyHistory_eq]
  rfl

/-- The block after a pick that brings tip `m` for tip `e`. -/
def mismatched (x : Arm) (e p m : Nat) (lost cancelled headLast : Bool) (s : State) : State :=
  post (.change x) (.fault .identity (some e) (some m) (s.pccOf x).codeLast) (raise x .change
    ((disturbed (otherArm x) lost cancelled headLast (emptyHistory x (mispicked x e p m s))).onPcc x (fun q => { q with
      session := { q.session with state := .fault, timer := none, fault := some .identity }, changeDue := false })))

/-- The mismatch, field by field. -/
theorem mismatched_eq {lost cancelled headLast : Bool} : mismatched x e p m lost cancelled headLast s = { s with
    pcc := { s.pcc with
      tips := (mispicked x e p m s).pcc.tips, ports := (mispicked x e p m s).pcc.ports
      arm := (s.pcc.arm.modify (otherArm x) (disturbedPcc lost cancelled)).modify x (fun q => { q with
        session := { q.session with state := .fault, timer := none, fault := some .identity }, changeDue := false }) }
    cen := (s.cen.modify x (fun c => { c with history := [] })).modify (otherArm x)
      (fun c => if lost then { c with history := [] } else c)
    tcu := { s.tcu with
      arm := (s.tcu.arm.modify x (emptied (stationField (·.latchLimit) s))).modify (otherArm x)
        (disturbedTcu (stationField (·.latchLimit) s) lost cancelled) }
    mgd := {
      zones := if cancelled then unwaited (otherArm x) s else s.mgd.zones
      arm := (s.mgd.arm.modify (otherArm x) (disturbedMgd lost cancelled)).modify x (fun g => { g with
        causes := addCause g.causes .change }) }
    evu := (post (.change x) (.fault .identity (some e) (some m) (s.pccOf x).codeLast)
      (mismatchPosts (otherArm x) lost cancelled headLast s)).evu } := by
  have hposts := mismatchPosts_eq (s := s) (u := emptyHistory x (mispicked x e p m s)) (y := otherArm x) (lost := lost)
    (cancelled := cancelled) (headLast := headLast) (by rw [emptyHistory_mispicked]) (by rw [emptyHistory_mispicked]; rfl)
    (by rw [emptyHistory_mispicked]; rfl)
  rw [mismatched, disturbed, hposts, emptyHistory_mispicked]
  rfl

theorem tipOf_mispicked (hw : Whole s) (he : isTip e) (hm : isTip m) (hne : m ≠ e) {u : Nat} (hu : isTip u) :
    tipOf (mispicked x e p m s) u = { tipOf s u with
      location := if u = m then .onArm x else if u = e then .unknown else (tipOf s u).location } := by
  have htips : tipOf (mispicked x e p m s) u = tipOf (moveTip e .unknown (moveTip m (.onArm x) s)) u := by
    unfold mispicked unverifyFormer
    split
    · split <;> rfl
    · rfl
  rw [htips, tipOf_moveTip (hw.moveTip _) he hu, tipOf_moveTip hw hm hu]
  by_cases hum : u = m
  · simp [hum, hne]
  · by_cases hue : u = e
    · simp [hue, hne.symm]
    · simp [hum, hue]

theorem portOf_mispicked (hw : Whole s) (hp : isPort p) (hformer : ∀ q, (tipOf s m).location = .port q → isPort q) (q : Nat) :
    portOf (mispicked x e p m s) q
      = if q = p then .empty else if (tipOf s m).location = .port q then .unverified else portOf s q := by
  have hw' : Whole (moveTip e .unknown (moveTip m (.onArm x) s)) := (hw.moveTip _).moveTip _
  have hports : ∀ v, portOf (setPort p v (moveTip e .unknown (moveTip m (.onArm x) s))) q = if q = p then v else portOf s q :=
    fun v => portOf_setPort hw' hp v q
  unfold mispicked unverifyFormer
  cases hl : (tipOf s m).location with
  | port r =>
    dsimp only
    by_cases hrp : r = p
    · rw [if_pos hrp, hports]
      by_cases hqp : q = p
      · simp [hqp]
      · simp [hqp, hrp, Ne.symm hqp]
    · rw [if_neg hrp, portOf_setPort (hw'.setPort _) (hformer r hl), hports]
      by_cases hqr : q = r
      · simp [hqr, hrp]
      · simp [hqr, Ne.symm hqr]
  | _ => simpa using hports .empty

theorem whole_mispicked (hw : Whole s) : Whole (mispicked x e p m s) := by
  have hw' : Whole (setPort p .empty (moveTip e .unknown (moveTip m (.onArm x) s))) := ((hw.moveTip _).moveTip _).setPort _
  unfold mispicked unverifyFormer
  split
  · split
    · exact hw'
    · exact hw'.setPort _
  · exact hw'

/-- R26: only a LATCHED trigger ages when its arm's history is emptied. -/
theorem emptied_of_not_latched {limit : Nat} (h : armLatched s x = false) : emptied limit (s.tcuOf x) = { s.tcuOf x with
    touchDue := if (s.tcuOf x).touchDue = .resolve then .none else (s.tcuOf x).touchDue } := by
  unfold emptied
  split_ifs
  · split
    · next l hl => simp [armLatched, isLatched, show triggerOf s x = .latched l from hl] at h
    · rfl
  · rfl

theorem disturbedTcu_eq {limit : Nat} {lost cancelled : Bool} {u : TcuArm} : disturbedTcu limit lost cancelled u = { u with
    trigger := match u.trigger with
      | .disarmed => .disarmed
      | .armed => if lost then .disarmed else .armed
      | .rearm n => if lost then .disarmed else .rearm n
      | .latched l => .latched { l with age := if lost && decide (u.touchDue = .resolve) then l.age + 1 else l.age }
      | .suppressed => if cancelled then .disarmed else .suppressed
    touchDue := if lost && decide (u.touchDue = .resolve) then
        match u.trigger with
        | .latched l => if limit ≤ l.age + 1 then .late else .none
        | _ => .none
      else u.touchDue } := by
  obtain ⟨trigger, nextSeq, bracketOpen, feature, due⟩ := u
  by_cases hdue : due = .resolve
  · cases lost <;> cases cancelled <;> cases trigger <;> simp [disturbedTcu, bereft, emptied, standDown, restored, hdue]
  · cases lost <;> cases cancelled <;> cases trigger <;> simp [disturbedTcu, bereft, emptied, standDown, restored, hdue]

theorem pickComplete_mismatched {l : Bool} (hdue : (s.pccOf x).changeDue = true) (hk : (sessionOf s x).state = .pick)
    (he : (sessionOf s x).pickTip = some e) (hp : (sessionOf s x).pickPort = some p)
    (hm : pickOutcome s e (s.pccOf x).codeLast = .identified m) : pickComplete x l s
      = mismatched x e p m (decide ((tipOf s m).location = .onArm (otherArm x))) (expectsTip s (otherArm x) m) l s := by
  have hexpects : expectsTip (emptyHistory x (mispicked x e p m s)) (otherArm x) m = expectsTip s (otherArm x) m := by
    rw [emptyHistory_mispicked]
    rfl
  rw [pickComplete_due hdue hk, pickDone_identified he hp hm, disturb_eq, hexpects, enterFault_of_step, mismatched]
  have hsession : sessionOf (disturbed (otherArm x) (decide ((tipOf s m).location = .onArm (otherArm x)))
      (expectsTip s (otherArm x) m) l (emptyHistory x (mispicked x e p m s))) x = sessionOf s x := by
    rw [emptyHistory_mispicked]
    exact congrArg PccArm.session (get_modify_otherArm' ..)
  rw [hsession, inStep, hk]
  rfl

theorem isPort_of_location (h : TipsInPlace s) (hm : isTip m) {q : Nat} (hq : (tipOf s m).location = .port q) : isPort q := by
  obtain ⟨-, htips, -⟩ := h
  have := htips m (by omega) hm
  simp only [tipAgrees, hq, Bool.and_eq_true, decide_eq_true_eq] at this
  exact this.1

end

/-- Settles O41: the pick without a tip identified, and the mismatch field by field. -/
theorem pickMismatch : Obligations.PickMismatch := by
  unfold Obligations.PickMismatch
  intro s x headLast e p hn hplace hdue hk he hp y code carries
  obtain ⟨htip, -, hholds, hport⟩ := picks_from hn hplace hk he hp
  have hw := Whole.of_numbersBounded hn
  refine ⟨fun hnone hcode hzero => ?unidentified, fun m hcode hm hsup => ?identified⟩
  case unidentified =>
    have hout : pickOutcome s e code = .unidentified :=
      pickOutcome_unidentified (fun h u hu hne hpresent hc => hnone u h ⟨hu, hne, hpresent, hc⟩) (not_or.2 ⟨hcode, hzero⟩)
    have hstep : inStep (sessionOf (setPort p .empty (moveTip e .unknown s)) x) = true := by
      rw [show sessionOf (setPort p .empty (moveTip e .unknown s)) x = sessionOf s x from rfl, inStep, hk]
      rfl
    exact congrArg Host.Outcome.next ((pickComplete_due hdue hk).trans
      ((pickDone_unidentified he hp hout).trans (enterFault_of_step hstep)))
  case identified =>
    obtain ⟨hmtip, hne, hpresent, hmcode⟩ := hm
    have hout : pickOutcome s e code = .identified m := pickOutcome_of_carried hplace hcode hmtip hne hpresent hmcode
    have htriggered : armLatched s x = false := by
      have := (hsup x).2 (by rw [hk]; decide)
      simp [armLatched, this, isLatched]
    intro former lost cancelled aged head cancel posted
    have hexpects : expectsTip s y m = cancelled := rfl
    have hposts : mismatchPosts y lost cancelled headLast s = posted := by
      have hwhen (c : Bool) (f : State → State) (u : State) : whenDo c f u = (if c then f else id) u := by cases c <;> rfl
      simp only [mismatchPosts, hwhen]
      rfl
    refine ⟨mismatched x e p m lost (expectsTip s y m) headLast s,
      congrArg Host.Outcome.next (pickComplete_mismatched hdue hk he hp hout), fun u hu => ?tips, fun q hq => ?ports, ?tipCount,
      ?portCount, ?ownSession, ?otherSession, ?ownHistory, ?otherHistory, ?ownTrigger, ?otherTrigger, ?ownCauses, ?otherCauses,
      ?zones, ?events, ?frame⟩
    case tips =>
      rw [mismatched_eq]
      exact tipOf_mispicked hw htip hmtip hne hu
    case ports =>
      rw [mismatched_eq]
      exact portOf_mispicked hw hport (fun q hq => isPort_of_location hplace hmtip hq) q
    case tipCount =>
      rw [mismatched_eq]
      exact (whole_mispicked hw).tips
    case portCount =>
      rw [mismatched_eq]
      exact (whole_mispicked hw).ports
    case ownSession =>
      rw [mismatched_eq, State.pccOf, get_modify_self, get_modify_otherArm']
      rfl
    case otherSession =>
      rw [mismatched_eq, State.pccOf, get_modify_otherArm, get_modify_self]
      exact congrArg (fun c => disturbedPcc lost c (s.pccOf y)) hexpects
    case ownHistory =>
      rw [mismatched_eq, State.cenOf, get_modify_otherArm', get_modify_self]
      rfl
    case otherHistory =>
      rw [mismatched_eq, State.cenOf, get_modify_self, get_modify_otherArm]
      rfl
    case ownTrigger =>
      rw [mismatched_eq, State.tcuOf, get_modify_otherArm', get_modify_self]
      exact emptied_of_not_latched htriggered
    case otherTrigger =>
      rw [mismatched_eq, State.tcuOf, get_modify_self, get_modify_otherArm]
      exact disturbedTcu_eq.trans (by rw [hexpects]; rfl)
    case ownCauses =>
      rw [mismatched_eq, State.mgdOf, get_modify_self, get_modify_otherArm']
      rfl
    case otherCauses =>
      rw [mismatched_eq, State.mgdOf, get_modify_otherArm, get_modify_self]
      exact congrArg (fun c => disturbedMgd lost c (s.mgdOf y)) hexpects
    case zones =>
      rw [mismatched_eq, ← hexpects]
      rfl
    case events =>
      rw [mismatched_eq, hexpects, hposts]
    case frame => rw [mismatched_eq]

end Sys2Proof.Proofs
end

section
/-! The supervision of the frames and the onset of ring loss (07, 7.7). -/
namespace Sys2Proof.Proofs

open Sys2Proof.Machine Sys2Proof.Laws

section
variable {s : State} {x : Arm}

/-- R57, R58: a touch resolved late, or its loss. -/
theorem lateTouch_ends (s : State) (x : Arm) : LateEnds s (lateTouch x s) x where
  idle hnot := by
    unfold lateTouch
    split
    · next l hl => simp [armLatched, isLatched, hl] at hnot
    · rfl
  entry l e hl he := by
    rw [lateTouch_entry hl he]
    exact finishTouch_ends ⟨l, e, none, e.t, false, false, true⟩ [e] (fun f => by simp [touchFlag])
  nobody l m hl hempty hm := by
    rw [lateTouch_nobody hl hm hempty]
    cases (Memory.read m 39).getLsbD 3 <;> rfl

/-- R90: the hold causes and the session of an arm at the onset of ring loss. -/
theorem sessionRingLoss_eq (hfit : (sessionOf s x).fault.isSome = true ↔ (sessionOf s x).state = .fault) :
    sessionRingLoss x s = { s with
      pcc := { s.pcc with arm := s.pcc.arm.modify x (fun q =>
        if inStep (sessionOf s x) then { q with session := ringFaulted q.session, changeDue := false } else q) }
      mgd := { s.mgd with arm := s.mgd.arm.modify x (fun g =>
        if inStep (sessionOf s x) then { g with causes := addCause g.causes .change } else g) }
      evu := (ringFaultPost x s).evu } := by
  by_cases hstep : inStep (sessionOf s x) = true
  · have henter : sessionRingLoss x s = enterFault x .ring (.fault .ring none none 0) s := if_pos (by rw [hstep]; rfl)
    have hfaulted : s.pcc.arm.modify x (fun q => if inStep (sessionOf s x) then
        { q with session := ringFaulted q.session, changeDue := false } else q) = s.pcc.arm.modify x (fun q => { q with
          session := { q.session with state := .fault, timer := none, fault := some .ring }, changeDue := false }) := by
      refine modify_congr ?_
      rw [if_pos hstep, ringFaulted, if_pos (by exact hstep)]
    rw [henter, enterFault_of_step hstep, hfaulted]
    simp only [if_pos hstep, ringFaultPost]
    rfl
  · have hpcc : s.pcc.arm.modify x (fun q => if inStep (sessionOf s x) then
        { q with session := ringFaulted q.session, changeDue := false } else q) = s.pcc.arm := modify_self (if_neg hstep)
    have hmgd : s.mgd.arm.modify x (fun g => if inStep (sessionOf s x) then { g with causes := addCause g.causes .change } else g)
        = s.mgd.arm := modify_self (if_neg hstep)
    rw [hpcc, hmgd]
    cases hf : (sessionOf s x).fault with
    | none =>
      have hno : (sessionOf s x).state ≠ .fault := fun h => by simp [hf] at hfit; exact hfit h
      simp only [sessionRingLoss, ringFaultPost, hf, hno, hstep]
      rfl
    | some kept =>
      have hfault : (sessionOf s x).state = .fault := hfit.1 (by rw [hf]; rfl)
      simp only [sessionRingLoss, ringFaultPost, hf, hfault, hstep, enterFault]
      rfl

/-- R150, R90: the hold causes of an arm once ring loss has begun. -/
def ringHeld (c : Session) (g : MgdArm) : MgdArm := { g with
  causes := if inStep c then addCause (addCause g.causes .ring) .change else addCause g.causes .ring }

/-- R90: an arm's session once ring loss has begun. -/
def ringStopped (c : Session) (q : PccArm) : PccArm :=
  if inStep c then { q with session := ringFaulted q.session, changeDue := false } else q

/-- R150: the block in ring loss, before the touches are resolved. -/
def ringLost (s : State) : State :=
  { s with
    riu := { s.riu with ringLoss := true }
    mgd := { s.mgd with arm := (s.mgd.arm.modify .a (ringHeld (sessionOf s .a))).modify .b (ringHeld (sessionOf s .b)) }
    pcc := { s.pcc with arm := (s.pcc.arm.modify .a (ringStopped (sessionOf s .a))).modify .b (ringStopped (sessionOf s .b)) }
    evu := (ringFaultPost .b (ringFaultPost .a s)).evu }

theorem ringFaultPost_evu {u : State} (hs : sessionOf u x = sessionOf s x) (he : u.evu = s.evu) :
    (ringFaultPost x u).evu = (ringFaultPost x s).evu := by
  simp only [ringFaultPost, hs]
  split_ifs
  · exact whenDo_post_evu (c := true) he
  · split
    · exact whenDo_post_evu (c := true) he
    · exact he

theorem sessionOf_ringFaultPost (x y : Arm) : sessionOf (ringFaultPost x s) y = sessionOf s y := by
  unfold ringFaultPost
  split_ifs
  · rfl
  · split <;> rfl

theorem sessionRingLoss_both (hfit : ∀ x, (sessionOf s x).fault.isSome = true ↔ (sessionOf s x).state = .fault) :
    sessionRingLoss .b (sessionRingLoss .a (raise .b .ring (raise .a .ring { s with riu := { s.riu with ringLoss := true } })))
      = ringLost s := by
  have hheld (c : Session) (g : MgdArm) : (if inStep c then { g with causes := addCause (addCause g.causes .ring) .change }
      else { g with causes := addCause g.causes .ring }) = ringHeld c g := by
    by_cases h : inStep c = true <;> simp [ringHeld, h]
  rw [sessionRingLoss_eq (x := .a) (by exact hfit .a), sessionRingLoss_eq (x := .b) (by exact hfit .b)]
  have hevu {u v : State} (hu : u.evu = (ringFaultPost .a v).evu) (hua : sessionOf v .a = sessionOf s .a)
      (hub : sessionOf u .b = sessionOf s .b) (hv : v.evu = s.evu) : (ringFaultPost .b u).evu = (ringFaultPost .b (ringFaultPost .a s)).evu :=
    ringFaultPost_evu (hub.trans (sessionOf_ringFaultPost ..).symm) (hu.trans (ringFaultPost_evu hua hv))
  rw [hevu (by exact rfl) (by exact rfl) (by exact rfl) (by exact rfl)]
  simp only [ringLost, raise, State.onMgd, PerArm.modify, ← hheld]
  rfl

theorem ringLossOnset_eq (hfit : SessionFieldsFit s) (bFirst : Bool) : ringLossOnset bFirst s
    = post .ring .ringLost (lateTouch (otherArm (if bFirst then .b else .a)) (lateTouch (if bFirst then .b else .a) (ringLost s))) := by
  have hfault (x : Arm) : (sessionOf s x).fault.isSome = true ↔ (sessionOf s x).state = .fault := by
    obtain ⟨-, -, hfault, -⟩ := hfit x
    exact hfault
  unfold ringLossOnset
  dsimp only
  rw [sessionRingLoss_both hfault]
  cases bFirst <;> rfl

/-- R149: a missing frame counted, short of ring loss or in it. -/
theorem countMissing_counts {bFirst : Bool} (h : s.riu.ringLoss = true ∨ min 65535 (s.riu.missed + 1) < stationField (·.ringLimit) s) :
    countMissing 1 bFirst s = { s with riu := { s.riu with missed := min 65535 (s.riu.missed + 1) } } := by
  refine if_neg ?_
  rintro ⟨hloss, hlimit⟩
  rcases h with h | h
  · simp [h] at hloss
  · exact absurd hlimit (not_le.2 h)

/-- R149, R150: the missing frame that begins ring loss. -/
theorem countMissing_begins {bFirst : Bool} (hloss : s.riu.ringLoss = false) (h : stationField (·.ringLimit) s ≤ min 65535 (s.riu.missed + 1)) :
    countMissing 1 bFirst s = ringLossOnset bFirst { s with riu := { s.riu with missed := min 65535 (s.riu.missed + 1) } } :=
  if_pos ⟨hloss, h⟩

end

/-- Settles O52: the deadline reached, the frame counted, and the onset of ring loss. -/
theorem missedFrameDeadlineCounts : Obligations.MissedFrameDeadlineCounts := by
  unfold Obligations.MissedFrameDeadlineCounts
  refine fun s bFirst => ⟨fun hnone => ?none, fun d hd hquiet => ?some⟩
  case none =>
    have hsup : supervised s = false := by rw [supervised, hnone]; rfl
    exact congrArg Host.Outcome.next (if_neg (by rw [hsup]; decide))
  case some =>
    intro m limit r
    have hsup : supervised s = true := by rw [supervised, hd]; rfl
    have hexec : exec (.missedFrameDeadline bFirst) s = .next (countMissing 1 bFirst { s with riu := { s.riu with
        clock := clockAfter s.riu.clock (timeUntil s.riu.clock d), deadline := some (clockAfter d (periodNs s)) } }) := by
      have hsettled : exec (.missedFrameDeadline bFirst) s = .next (reachDeadline bFirst s) :=
        congrArg Host.Outcome.next ((if_pos hsup).trans (by rw [settleFrame_quiet hquiet]))
      rw [hsettled, reachDeadline, hd]
    refine ⟨fun h => hexec.trans (congrArg Host.Outcome.next (countMissing_counts h)), fun hloss hlimit hfit => ?_⟩
    intro held stopped lost first
    refine ⟨lateTouch first lost, lateTouch (otherArm first) (lateTouch first lost), ?_, lateTouch_ends _ _, lateTouch_ends _ _⟩
    refine hexec.trans (congrArg Host.Outcome.next ((countMissing_begins (by exact hloss) (by exact hlimit)).trans ?_))
    have hevu : (ringFaultPost .b (ringFaultPost .a { s with riu := r })).evu = (ringFaultPost .b (ringFaultPost .a s)).evu :=
      ringFaultPost_evu ((sessionOf_ringFaultPost .a .b).trans (sessionOf_ringFaultPost (s := s) .a .b).symm)
        (ringFaultPost_evu rfl rfl)
    have hlost : ringLost { s with riu := r } = lost := by
      rw [ringLost, hevu]
      rfl
    exact (ringLossOnset_eq (s := { s with riu := r }) hfit bFirst).trans (by rw [hlost])

end Sys2Proof.Proofs
end

section
/-! The frames that are not acted on, the links and the power-on reset (07, 7.1, 7.5, 7.7, 7.8). -/
namespace Sys2Proof.Proofs

open Sys2Proof.Machine Sys2Proof.Laws

section
variable {s : State} {elapsed : Nat} {f : RingFrame}

/-! ### The ports and the lines -/

theorem portOpen_p1 (hreset : s.riu.inReset = false) (hup : s.riu.p1Up = true) : portOpen .p1 s = true := by
  simp [portOpen, hreset, hup]

theorem portOpen_p2 (hreset : s.riu.inReset = false) (hup : s.riu.p2Up = true) : portOpen .p2 s = true := by
  simp [portOpen, hreset, hup]

theorem portOpen_closed {p : RingPort}
    (h : s.riu.inReset = true ∨ (p = .p1 ∧ s.riu.p1Up = false) ∨ (p = .p2 ∧ s.riu.p2Up = false)) : portOpen p s = false := by
  rcases h with h | ⟨rfl, h⟩ | ⟨rfl, h⟩ <;> simp [portOpen, h]

theorem arrive_settled (h : Settled elapsed s) : arrive elapsed s = { s with riu := laterRiu elapsed s } := by
  obtain ⟨-, hquiet, hahead⟩ := h
  exact arrive_quiet hquiet hahead

theorem arriveP1_settled (h : Settled elapsed s) : arriveP1 elapsed s = { s with riu := laterRiu elapsed s } := by
  obtain ⟨-, hquiet, hahead⟩ := h
  exact arriveP1_quiet hquiet hahead

theorem arriveBack_settled (h : Settled elapsed s) : arriveBack elapsed f s = { s with riu := laterRiu elapsed s } := by
  obtain ⟨-, hquiet, hahead⟩ := h
  exact arriveBack_quiet hquiet hahead

theorem forwardP1_eq {ok turns : Bool} (h : s.riu.p1Up = true) : forwardP1 ok turns f s = { s with riu :=
    if s.riu.p2Up then { s.riu with sent2 := some ⟨f, ok⟩ }
    else if turns then { s.riu with sent1 := some ⟨f, ok⟩ } else s.riu } := by
  unfold forwardP1
  split_ifs
  · rfl
  · rw [sendP1, if_pos h]
  · rfl

/-- A frame that arrives at P1 goes on unaltered. -/
theorem forwardP1_turning {ok : Bool} (h : s.riu.p1Up = true) : forwardP1 ok true f s = { s with riu := sentOn ok f s.riu } :=
  forwardP1_eq h

theorem passP2_settled {ok : Bool} (h : Settled elapsed s) : passP2 ok elapsed f s = { s with riu := { laterRiu elapsed s with
    sent1 := if s.riu.p1Up then some ⟨f, ok⟩ else none } } := by
  rw [passP2, arrive_settled h]
  rfl

theorem countIfTurned_eq : countIfTurned s = { s with riu := { s.riu with
    turned := if s.riu.p2Up then s.riu.turned else min 65535 (s.riu.turned + 1) } } := by
  unfold countIfTurned
  split_ifs <;> rfl

end

/-- Settles O55: each frame leaves the block as it found it but for the clock and the lines. -/
theorem framesForwardedUnaltered : Obligations.FramesForwardedUnaltered := by
  unfold Obligations.FramesForwardedUnaltered
  intro s elapsed f hset
  obtain ⟨hreset, -, -⟩ := id hset
  refine ⟨fun hkind => ⟨fun hup => ?otherP1, fun hup => ?otherP2⟩, fun hcycle hup hno c => ?back,
    fun hcycle hup hstation out c => ?unaddressed⟩
  case otherP1 =>
    have hexec : exec (.otherFrame elapsed .p1 f) s = .next (forwardP1 true false f (arrive elapsed s)) :=
      congrArg Host.Outcome.next (if_pos (by rw [portOpen_p1 hreset hup, hkind]; rfl))
    rw [hexec, arrive_settled hset, forwardP1]
    cases hp2 : s.riu.p2Up <;> simp [laterRiu, hp2, sendP2]
  case otherP2 =>
    have hexec : exec (.otherFrame elapsed .p2 f) s = .next (passP2 true elapsed f s) :=
      congrArg Host.Outcome.next (if_pos (by rw [portOpen_p2 hreset hup, hkind]; rfl))
    rw [hexec, passP2_settled hset]
  case back =>
    have hnone : returnOf f { s with riu := laterRiu elapsed s } = none := by
      unfold returnOf
      split
      · next n hn =>
        refine if_neg ?_
        rintro ⟨hnumber, hstation, hloss⟩
        rcases hno with h | h | h
        · exact hstation h
        · exact absurd (h.symm.trans hloss) (by decide)
        · exact h n hn hnumber
      · rfl
    have hexec : exec (.cycleFrameReturn elapsed f c) s = .next (match returnOf f (arriveBack elapsed f s) with
        | some n => returnPass n f f.payload c (arriveBack elapsed f s)
        | none => sendP1 true f (arriveBack elapsed f s)) :=
      congrArg Host.Outcome.next (if_pos (by rw [portOpen_p2 hreset hup, hcycle]; rfl))
    rw [hexec, arriveBack_settled hset, hnone]
    rfl
  case unaddressed =>
    have hexec : exec (.cycleFrameOutbound elapsed f out c) s = .next (outboundPass f out c (arriveP1 elapsed s)) :=
      congrArg Host.Outcome.next (if_pos (by rw [portOpen_p1 hreset hup, hcycle]; rfl))
    have hpass : outboundPass f out c { s with riu := laterRiu elapsed s }
        = forwardP1 true true f (countIfTurned (realign f { s with riu := laterRiu elapsed s })) := if_pos hstation
    rw [hexec, arriveP1_settled hset, hpass, countIfTurned_eq, forwardP1_turning (by exact hup)]
    rfl

/-! ### Power-on reset and the links -/

/-- Settles O56: the reset, the links, and the frames that are none of a command's. -/
theorem resetAndLinks : Obligations.ResetAndLinks := by
  unfold Obligations.ResetAndLinks
  refine ⟨fun s cut1 cut2 => rfl, fun s => rfl, fun s elapsed up => ⟨fun hreset => ?held, fun hset => ?settled⟩,
    fun s elapsed port f bFirst out back => ?frames⟩
  case held =>
    have hpass : passTimeOutOfReset elapsed s = s := if_pos hreset
    have hp1 : exec (.p1LinkChange elapsed up) s = .next { passTimeOutOfReset elapsed s with
        riu := { (passTimeOutOfReset elapsed s).riu with p1Up := up } } := rfl
    have hp2 : exec (.p2LinkChange elapsed up) s = .next { passTimeOutOfReset elapsed s with
        riu := { (passTimeOutOfReset elapsed s).riu with p2Up := up } } := rfl
    rw [hp1, hp2, hpass]
    exact ⟨rfl, rfl⟩
  case settled =>
    obtain ⟨hreset, hquiet, hahead⟩ := hset
    have hpass : passTimeOutOfReset elapsed s = { s with riu := { s.riu with clock := clockAfter s.riu.clock elapsed } } :=
      (if_neg (by rw [hreset]; decide)).trans (passTime_quiet hquiet hahead)
    have hp1 : exec (.p1LinkChange elapsed up) s = .next { passTimeOutOfReset elapsed s with
        riu := { (passTimeOutOfReset elapsed s).riu with p1Up := up } } := rfl
    have hp2 : exec (.p2LinkChange elapsed up) s = .next { passTimeOutOfReset elapsed s with
        riu := { (passTimeOutOfReset elapsed s).riu with p2Up := up } } := rfl
    rw [hp1, hp2, hpass]
    exact ⟨rfl, rfl⟩
  case frames =>
    have hout (h : (portOpen .p1 s && isCycleFrame f) = false) : exec (.cycleFrameOutbound elapsed f out back) s = .next s :=
      congrArg Host.Outcome.next (if_neg (by rw [h]; decide))
    have hback (h : (portOpen .p2 s && isCycleFrame f) = false) : exec (.cycleFrameReturn elapsed f back) s = .next s :=
      congrArg Host.Outcome.next (if_neg (by rw [h]; decide))
    have hbad (h : portOpen port s = false) : exec (.badCheckFrame elapsed port f bFirst) s = .next s :=
      congrArg Host.Outcome.next (if_neg (by rw [h]; decide))
    have hwrong (h : (portOpen port s && isWrongLength f) = false) : exec (.wrongLengthFrame elapsed port f bFirst) s = .next s :=
      congrArg Host.Outcome.next (if_neg (by rw [h]; decide))
    have hlink (h : (portOpen port s && decide (frameKind f = .linkCheck)) = false) :
        exec (.linkCheckFrame elapsed port f) s = .next s := congrArg Host.Outcome.next (if_neg (by rw [h]; decide))
    have hother (h : (portOpen port s && decide (frameKind f = .other)) = false) :
        exec (.otherFrame elapsed port f) s = .next s := congrArg Host.Outcome.next (if_neg (by rw [h]; decide))
    refine ⟨fun h => ⟨hout (by rw [h, Bool.and_false]), hback (by rw [h, Bool.and_false])⟩,
      fun h => hwrong (by rw [h, Bool.and_false]), fun h => hlink (by rw [decide_eq_false h, Bool.and_false]),
      fun h => hother (by rw [decide_eq_false h, Bool.and_false]), fun h => hout (by rw [portOpen_closed h, Bool.false_and]),
      fun h => hback (by rw [portOpen_closed h, Bool.false_and]), fun h => ?closed⟩
    have hclosed := portOpen_closed h
    exact ⟨hbad hclosed, hwrong (by rw [hclosed, Bool.false_and]), hlink (by rw [hclosed, Bool.false_and]),
      hother (by rw [hclosed, Bool.false_and])⟩

/-! ### Missing frames -/

section
variable {s : State} {elapsed : Nat} {f : RingFrame} {bFirst : Bool}

theorem missingArrival_unsupervised (h : s.riu.deadline = none) : missingArrival bFirst s = s :=
  if_neg (by rw [supervised, h]; decide)

theorem missingArrival_supervised (h : s.riu.deadline ≠ none) : missingArrival bFirst s = countMissing 1 bFirst
    { s with riu := { s.riu with deadline := some (clockAfter s.riu.clock (3 * periodNs s / 2)) } } :=
  if_pos (Option.isSome_iff_ne_none.2 h)

theorem riu_ringLossOnset : (ringLossOnset bFirst s).riu = { s.riu with ringLoss := true } := by
  have htouches : Touches [.cen, .tcu, .pcc, .mgd, .evu]
      (raise .b .ring (raise .a .ring { s with riu := { s.riu with ringLoss := true } })) (ringLossOnset bFirst s) := by
    unfold ringLossOnset
    cases bFirst <;> simp
  exact htouches.riu (by decide)

theorem hasCause_ringLossOnset (x : Arm) : hasCause ((ringLossOnset bFirst s).mgdOf x).causes .ring = true := by
  have hsession (y : Arm) (u : State) : holdsOf (sessionRingLoss y u) = holdsOf u := by
    unfold sessionRingLoss
    split_ifs <;> simp
  have hlate (y : Arm) (u : State) : holdsOf (lateTouch y u) = holdsOf u := holdsOf_lateTouch u y
  have hholds : holdsOf (ringLossOnset bFirst s) = { holdsOf s with ringLoss := true, ring := fun _ => true } := by
    unfold ringLossOnset
    cases bFirst <;> simp only [holdsOf_post, hlate, hsession, holdsOf_ringBegin, if_true, Bool.false_eq_true, if_false]
  exact congrFun (congrArg Holds.ring hholds) x

end

/-- Settles O53: a missing frame is counted where frames are supervised, and goes on as it came. -/
theorem missingFramesAreForwarded : Obligations.MissingFramesAreForwarded := by
  unfold Obligations.MissingFramesAreForwarded
  intro s elapsed f bFirst hset later counted bad wrong turned badOn
  obtain ⟨hreset, -, -⟩ := id hset
  have hbad (hup : s.riu.p1Up = true) : bad .p1
      = .next (forwardP1 false (Config.badFrameTurnsAround f) f (missingArrival bFirst { s with riu := later })) := by
    refine congrArg Host.Outcome.next ((if_pos (portOpen_p1 hreset hup)).trans ?_)
    rw [badAtP1, arriveP1_settled hset]
  have hwrong (hup : s.riu.p1Up = true) (hlen : isWrongLength f = true) : wrong .p1
      = .next (forwardP1 true true f (countIfTurned (missingArrival bFirst { s with riu := later }))) := by
    refine congrArg Host.Outcome.next ((if_pos (by rw [portOpen_p1 hreset hup, hlen]; rfl)).trans ?_)
    rw [wrongAtP1, arriveP1_settled hset]
  have hsentBad {u : State} (hup : u.riu.p1Up = true) : forwardP1 false (Config.badFrameTurnsAround f) f u = { u with riu := badOn u.riu } :=
    forwardP1_eq hup
  have hsentWrong {u : State} (hup : u.riu.p1Up = true) (h : u.riu.turned = s.riu.turned) :
      forwardP1 true true f (countIfTurned u) = { u with riu := sentOn true f (turned u.riu) } := by
    have hriu : { u.riu with turned := if u.riu.p2Up then u.riu.turned else min 65535 (u.riu.turned + 1) } = turned u.riu := by
      rw [h]
      by_cases hp2 : u.riu.p2Up = true
      · exact (by rw [if_pos hp2, ← h] : _ = u.riu).trans (if_pos hp2).symm
      · exact (by rw [if_neg hp2] : _ = { u.riu with turned := min 65535 (s.riu.turned + 1) }).trans (if_neg hp2).symm
    rw [countIfTurned_eq, forwardP1_turning (by exact hup)]
    exact congrArg (fun r => { u with riu := sentOn true f r }) hriu
  refine ⟨fun hup hd => ?unsupervised, fun hup hd hcount => ?counted, fun hup hd hloss hlimit => ?begins, fun hup => ?back⟩
  case unsupervised =>
    have harrival : missingArrival bFirst { s with riu := later } = { s with riu := later } := missingArrival_unsupervised hd
    refine ⟨(hbad hup).trans ?_, fun hlen => (hwrong hup hlen).trans ?_⟩
    · rw [harrival, hsentBad (by exact hup)]
    · rw [harrival, hsentWrong (by exact hup) (by exact rfl)]
  case counted =>
    have harrival : missingArrival bFirst { s with riu := later } = { s with riu := counted } :=
      (missingArrival_supervised (s := { s with riu := later }) hd).trans (countMissing_counts hcount)
    refine ⟨(hbad hup).trans ?_, fun hlen => (hwrong hup hlen).trans ?_⟩
    · rw [harrival, hsentBad (by exact hup)]
    · rw [harrival, hsentWrong (by exact hup) (by exact rfl)]
  case begins =>
    have harrival : missingArrival bFirst { s with riu := later } = ringLossOnset bFirst { s with riu := counted } :=
      (missingArrival_supervised (s := { s with riu := later }) hd).trans (countMissing_begins hloss hlimit)
    have hriu : (ringLossOnset bFirst { s with riu := counted }).riu = { counted with ringLoss := true } := riu_ringLossOnset
    have hup' : (ringLossOnset bFirst { s with riu := counted }).riu.p1Up = true := by
      rw [hriu]
      exact hup
    refine ⟨⟨_, (hbad hup).trans (by rw [harrival, hsentBad hup']), ?_, fun x => ?_⟩,
      fun hlen => ⟨_, (hwrong hup hlen).trans (by rw [harrival, hsentWrong hup' ((congrArg Riu.turned hriu).trans rfl)]), ?_, fun x => ?_⟩⟩
    · rw [hriu]
    · exact hasCause_ringLossOnset x
    · rw [hriu]
    · exact hasCause_ringLossOnset x
  case back =>
    intro out
    refine ⟨congrArg Host.Outcome.next ((if_pos (portOpen_p2 hreset hup)).trans (passP2_settled hset)), fun hlen => ?_⟩
    exact congrArg Host.Outcome.next ((if_pos (by rw [portOpen_p2 hreset hup, hlen]; rfl)).trans (passP2_settled hset))

end Sys2Proof.Proofs
end

section
/-! Link checks (07, 7.5): the identity record and the address taken. -/
namespace Sys2Proof.Proofs

open Sys2Proof.Machine Sys2Proof.Laws

section
variable {s : State} {elapsed : Nat} {f : RingFrame}

theorem headerByte_withHeaderByte {i j : Nat} {v : Byte} (hi : i < 12) :
    headerByte (withHeaderByte i v f) j = if j = i then v else headerByte f j := by
  have hmask (n : Nat) : (255 : BitVec 96).getLsbD n = decide (n < 8) := by
    rw [show (255 : BitVec 96) = BitVec.ofNat 96 (2 ^ 8 - 1) from rfl, BitVec.getLsbD_ofNat, Nat.testBit_two_pow_sub_one]
    by_cases h : n < 8
    · simp [h, show n < 96 by omega]
    · simp [h]
  refine BitVec.eq_of_getLsbD_eq (fun k hk => ?_)
  simp only [headerByte, withHeaderByte, BitVec.getLsbD_extractLsb', hk, decide_true, Bool.true_and, BitVec.getLsbD_or,
    BitVec.getLsbD_and, BitVec.getLsbD_not, BitVec.getLsbD_shiftLeft, hmask, BitVec.getLsbD_setWidth]
  by_cases hji : j = i
  · subst hji
    simp [hk, show 8 * j + k < 96 by omega, show k < 96 by omega]
  · by_cases hlt : 8 * j + k < 96
    · by_cases hbelow : j < i
      · simp [hji, hlt, show 8 * j + k < 8 * i by omega, hk]
      · simp [hji, hlt, show ¬ 8 * j + k < 8 * i by omega, show ¬ 8 * j + k - 8 * i < 8 by omega, hk,
          BitVec.getLsbD_of_ge v _ (show 8 ≤ 8 * j + k - 8 * i by omega)]
    · simp [hji, hlt, hk, BitVec.getLsbD_of_ge f.header _ (show 96 ≤ 8 * j + k by omega)]

theorem bytesAt_of_holdsAt {m : Memory 8} {off : Nat} {vs : List Byte} (h : HoldsAt m off vs) : bytesAt m off vs.length = vs := by
  rw [holdsAt_iff] at h
  refine List.ext_getElem (by simp [bytesAt]) (fun i hi hi' => ?_)
  simp only [bytesAt, List.getElem_map, List.getElem_range, h i hi', List.getD_eq_getElem?_getD, List.getElem?_eq_getElem hi',
    Option.getD_some]

theorem identityBytes_eq : identityBytes s = [0x31, 0x0E, 0x2E, 0x0A, 1, s.riu.address.getD 0,
    BitVec.ofNat 8 (stationCode s.riu.station), 2, 24, 12, 8, 32, 0, 0, 0, 0] := rfl

/-- R144, R145: the record in its place, and every other byte of the payload as it came. -/
theorem appendIdentity_record (hwf : Memory.wf f.payload = true) :
    bytesAt (appendIdentity f s).payload (16 * (headerByte f 2).toNat) 16 = identityBytes s
      ∧ ∀ a, (a < 16 * (headerByte f 2).toNat ∨ 16 * (headerByte f 2).toNat + 16 ≤ a) →
        Memory.read (appendIdentity f s).payload a = Memory.read f.payload a := by
  have hpayload : (appendIdentity f s).payload = Memory.writeAll f.payload (16 * (headerByte f 2).toNat) (identityBytes s) := rfl
  have hlen : (identityBytes s).length = 16 := rfl
  rw [hpayload]
  exact ⟨hlen ▸ bytesAt_of_holdsAt (holdsAt_writeAll hwf), fun a ha => read_writeAll_other (by rw [hlen]; exact ha)⟩

theorem headerByte_appendIdentity (j : Nat) :
    headerByte (appendIdentity f s) j = if j = 2 then headerByte f 2 + 1 else headerByte f j :=
  headerByte_withHeaderByte (f := writePayload _ _ f) (by decide)

/-- A frame differs from another in the header and the payload alone. -/
theorem appendIdentity_frame {g : RingFrame} (h : f = { g with header := f.header, payload := f.payload }) :
    appendIdentity f s = { g with header := (appendIdentity f s).header, payload := (appendIdentity f s).payload } := by
  have hframe : appendIdentity f s = { f with header := (appendIdentity f s).header, payload := (appendIdentity f s).payload } := rfl
  generalize appendIdentity f s = u at hframe
  rw [hframe, h]

theorem withHeaderByte_frame (i : Nat) (v : Byte) (f : RingFrame) : withHeaderByte i v f
    = { f with header := (withHeaderByte i v f).header, payload := (withHeaderByte i v f).payload } := rfl

theorem addressGiven_eq_some (h : s.riu.station = .unaddressed ∧ 1 ≤ (headerByte f 1).toNat ∧ (headerByte f 1).toNat ≤ 254) :
    addressGiven f s = some (headerByte f 1) := if_pos h

theorem addressGiven_eq_none (h : ¬ (s.riu.station = .unaddressed ∧ 1 ≤ (headerByte f 1).toNat ∧ (headerByte f 1).toNat ≤ 254)) :
    addressGiven f s = none := if_neg h

end

/-- Settles O54: a frame of another length, a full list, a part that has its address, and one that takes it. -/
theorem linkCheckAnswered : Obligations.LinkCheckAnswered := by
  unfold Obligations.LinkCheckAnswered
  intro s elapsed f hset hkind later counter count atP1 takes record keeps
  obtain ⟨hreset, -, -⟩ := id hset
  have hexec (hup : s.riu.p1Up = true) : atP1 = .next (linkCheckAtP1 elapsed f s) :=
    congrArg Host.Outcome.next (if_pos (by rw [portOpen_p1 hreset hup, hkind]; rfl))
  have hanswer (hup : s.riu.p1Up = true) (hlen : f.length = 1472) : atP1 = .next (forwardP1 true true
      (answerLinkCheck f { s with riu := later }).1 (answerLinkCheck f { s with riu := later }).2) := by
    rw [hexec hup, linkCheckAtP1, arrive_settled hset]
    exact congrArg Host.Outcome.next (if_pos hlen)
  have hstate (v : StationState) : BitVec.ofNat 8 (stationCode v) = (match v with
      | .unaddressed => 0
      | .config => 1
      | .run => 2) := by cases v <;> rfl
  refine ⟨fun hup hlen => ?length, fun hup hlen hfull => ?full, fun hup hlen hwf hroom hno => ?kept,
    fun hup hlen hwf hroom htakes => ?taken, fun hup => ?back⟩
  case length =>
    rw [hexec hup, linkCheckAtP1, arrive_settled hset]
    exact congrArg Host.Outcome.next ((if_neg hlen).trans (forwardP1_turning (by exact hup)))
  case full =>
    have hans : answerLinkCheck f { s with riu := later } = (withHeaderByte 3 1 f, { s with riu := later }) := if_pos hfull
    refine ⟨withHeaderByte 3 1 f, ?_, rfl, (headerByte_withHeaderByte (by decide)).trans (if_pos rfl), fun i hi hne => ?_, rfl⟩
    · rw [hanswer hup hlen, hans, forwardP1_turning (by exact hup)]
    · exact (headerByte_withHeaderByte (by decide)).trans (if_neg (by simpa using hne))
  case kept =>
    have hans : answerLinkCheck f { s with riu := later } = (appendIdentity f { s with riu := later }, { s with riu := later }) := by
      rw [answerLinkCheck, if_neg (by exact not_le.2 hroom), addressGiven_eq_none (by exact hno)]
    refine ⟨appendIdentity f { s with riu := later }, ?_, ?_, (headerByte_appendIdentity 2).trans (if_pos rfl), fun i hi hne => ?_, rfl⟩
    · rw [hanswer hup hlen, hans, forwardP1_turning (by exact hup)]
    · obtain ⟨hrecord, hrest⟩ := appendIdentity_record (s := { s with riu := later }) hwf
      refine ⟨hrecord.trans ?_, hrest⟩
      rw [identityBytes_eq]
      exact congrArg (fun v => [0x31, 0x0E, 0x2E, 0x0A, 1, s.riu.address.getD 0, v, 2, 24, 12, 8, 32, 0, 0, 0, 0]) (hstate s.riu.station)
    · exact (headerByte_appendIdentity i).trans (if_neg (by simpa using hne))
  case taken =>
    have hans : answerLinkCheck f { s with riu := later } = (appendIdentity (withHeaderByte 1 (counter + 1) f)
        (takeAddress counter { s with riu := later }), takeAddress counter { s with riu := later }) := by
      rw [answerLinkCheck, if_neg (by exact not_le.2 hroom), addressGiven_eq_some (by exact htakes)]
    have hcount : headerByte (withHeaderByte 1 (counter + 1) f) 2 = headerByte f 2 :=
      (headerByte_withHeaderByte (by decide)).trans (if_neg (by decide))
    refine ⟨appendIdentity (withHeaderByte 1 (counter + 1) f) (takeAddress counter { s with riu := later }), ?_, ?_, ?_,
      (headerByte_appendIdentity 2).trans ((if_pos rfl).trans (congrArg (· + 1) hcount)), fun i hi hne => ?_, ?_⟩
    · rw [hanswer hup hlen, hans, forwardP1_turning (by exact hup)]
      rfl
    · obtain ⟨hrecord, hrest⟩ := appendIdentity_record (f := withHeaderByte 1 (counter + 1) f)
        (s := takeAddress counter { s with riu := later }) hwf
      rw [hcount] at hrecord hrest
      exact ⟨hrecord, hrest⟩
    · exact (headerByte_appendIdentity 1).trans ((headerByte_withHeaderByte (by decide)).trans (if_pos rfl))
    · have hne1 : i ≠ 1 := fun h => hne (by simp [h])
      have hne2 : i ≠ 2 := fun h => hne (by simp [h])
      exact (headerByte_appendIdentity i).trans ((if_neg hne2).trans ((headerByte_withHeaderByte (by decide)).trans (if_neg hne1)))
    · exact appendIdentity_frame (withHeaderByte_frame ..)
  case back =>
    exact congrArg Host.Outcome.next ((if_pos (by rw [portOpen_p2 hreset hup, hkind]; rfl)).trans (passP2_settled hset))

end Sys2Proof.Proofs
end

section
/-! What the parts of a pass keep: the workpiece record and the mark of the pass's drain, and the banks that are active. -/
namespace Sys2Proof.Proofs

open Sys2Proof.Machine Sys2Proof.Laws

/-- The workpiece record and the drain due. -/
def tcuRest (s : State) : Workpiece × Option Nat := (s.tcu.workpiece, s.tcu.drainDue)

section
variable (s : State) (x : Arm)

theorem tcuRest_of_touches {t : State} (h : Touches [.riu, .rqu, .tbs, .cen, .thu, .pcc, .mgd, .evu] s t) : tcuRest t = tcuRest s := by
  rw [tcuRest, h.tcu (by decide)]
  rfl

@[simp] theorem tcuRest_onTcu (f : TcuArm → TcuArm) : tcuRest (s.onTcu x f) = tcuRest s := rfl

@[simp] theorem tcuRest_onTrigger (f : Trigger → Trigger) : tcuRest (onTrigger x f s) = tcuRest s := rfl

@[simp] theorem tcuRest_onCen (f : CenArm → CenArm) : tcuRest (s.onCen x f) = tcuRest s := rfl

@[simp] theorem tcuRest_onPcc (f : PccArm → PccArm) : tcuRest (s.onPcc x f) = tcuRest s := rfl

@[simp] theorem tcuRest_post (src : EventSource) (d : Detail) : tcuRest (post src d s) = tcuRest s := rfl

@[simp] theorem tcuRest_raise (c : Cause) : tcuRest (raise x c s) = tcuRest s := rfl

@[simp] theorem tcuRest_raiseMasked (m : MaskBit) (c : Cause) : tcuRest (raiseMasked x m c s) = tcuRest s :=
  tcuRest_of_touches s (by simp)

@[simp] theorem tcuRest_setPort (p : Nat) (v : PortState) : tcuRest (setPort p v s) = tcuRest s := rfl

@[simp] theorem tcuRest_moveTip (t : Nat) (l : TipLocation) : tcuRest (moveTip t l s) = tcuRest s := rfl

@[simp] theorem tcuRest_whenDo_post (c : Bool) (src : EventSource) (d : Detail) : tcuRest (whenDo c (post src d) s) = tcuRest s := by
  cases c <;> rfl

@[simp] theorem tcuRest_ageLatch : tcuRest (ageLatch x s) = tcuRest s := by
  unfold ageLatch
  split <;> rfl

@[simp] theorem tcuRest_emptyHistory : tcuRest (emptyHistory x s) = tcuRest s := by
  unfold emptyHistory
  dsimp only
  split <;> simp

@[simp] theorem tcuRest_askRelease (z : Nat) : tcuRest (askRelease x z s) = tcuRest s := tcuRest_of_touches s (by simp)

@[simp] theorem tcuRest_withdrawWait (z : Nat) : tcuRest (withdrawWait x z s) = tcuRest s := tcuRest_of_touches s (by simp)

@[simp] theorem tcuRest_clearSession : tcuRest (clearSession x s) = tcuRest s := rfl

@[simp] theorem tcuRest_onSession (f : Session → Session) : tcuRest (onSession x f s) = tcuRest s := rfl

@[simp] theorem tcuRest_completeSession : tcuRest (completeSession x s) = tcuRest s := by simp [completeSession]

@[simp] theorem tcuRest_enterFault (c : FaultCause) (d : Detail) : tcuRest (enterFault x c d s) = tcuRest s :=
  tcuRest_of_touches s (by simp)

@[simp] theorem tcuRest_cancelWaiting : tcuRest (cancelWaiting x s) = tcuRest s := by simp [cancelWaiting]

@[simp] theorem tcuRest_dropComplete : tcuRest (dropComplete x s) = tcuRest s := by
  unfold dropComplete dropDone
  dsimp only
  split
  · split
    · split <;> simp
    · rfl
  · rfl

@[simp] theorem tcuRest_disturb (m : Nat) (lost headLast : Bool) : tcuRest (disturb x m lost headLast s) = tcuRest s := by
  rw [disturb_eq]
  rfl

@[simp] theorem tcuRest_unverifyFormer (l : TipLocation) (p : Nat) : tcuRest (unverifyFormer l p s) = tcuRest s :=
  tcuRest_of_touches s (by simp)

@[simp] theorem tcuRest_pickComplete (headLast : Bool) : tcuRest (pickComplete x headLast s) = tcuRest s := by
  unfold pickComplete pickDone
  dsimp only
  split
  · split
    · split <;> simp
    · rfl
  · rfl

@[simp] theorem tcuRest_losePoint (seq : BitVec 16) (why : LostReason) : tcuRest (losePoint x seq why s) = tcuRest s :=
  tcuRest_of_touches s (by simp)

@[simp] theorem tcuRest_joinQueue (p : Point) : tcuRest (joinQueue p s) = tcuRest s := by
  unfold joinQueue
  split
  · rfl
  · simp

@[simp] theorem tcuRest_numericOnset (sat beyond : BitVec 3) : tcuRest (numericOnset x sat beyond s) = tcuRest s :=
  tcuRest_of_touches s (by simp)

@[simp] theorem tcuRest_finishTouch (t : Touch) : tcuRest (finishTouch x t s) = tcuRest s := by simp [finishTouch, endTouch]

@[simp] theorem tcuRest_resolveTouch : tcuRest (resolveTouch x s) = tcuRest s := by
  unfold resolveTouch
  split <;> simp

@[simp] theorem tcuRest_lateResolution : tcuRest (lateResolution x s) = tcuRest s := by
  unfold lateResolution lateTouch
  split
  · split
    · split <;> simp [endTouch]
    · rfl
  · rfl

@[simp] theorem tcuRest_rearmExpiry : tcuRest (rearmExpiry x s) = tcuRest s := by
  unfold rearmExpiry
  split <;> rfl

@[simp] theorem tcuRest_resolutionStep (c : Option (BitVec 64)) : tcuRest (resolutionStep x c s) = tcuRest s := by
  unfold resolutionStep
  split
  · split <;> simp
  · simp

@[simp] theorem tcuRest_correctArm (input : Memory 8) : tcuRest (correctArm x input s).state = tcuRest s := by
  unfold correctArm
  split
  · split
    · simp
    · split <;> simp [correctInvalid, correctValid]
  · rfl

end

/-! ### The active banks -/

section
variable {s : State} {k : TableKind}

theorem activeBank_onTbs {j : TableKind} {f : TableState → TableState} (h : ∀ t, (f t).active = t.active) :
    activeBank k (s.onTbs j f) = activeBank k s := by
  by_cases hkj : k = j
  · subst hkj
    rw [activeBank, onTbs_tbsOf, h, activeBank]
  · rw [activeBank, onTbs_tbsOf_other _ _ hkj, activeBank]

theorem activeBank_checkComplete (j : TableKind) : activeBank k (checkComplete j s) = activeBank k s := by
  unfold checkComplete
  dsimp only
  split
  · exact (activeBank_congr (post_tbs ..)).trans (activeBank_onTbs (fun _ => rfl))
  · rfl

theorem activeBank_checksPass : activeBank k (checksPass s) = activeBank k s := by
  have hactive (t : TableState) : (checkPortion t).active = t.active := by
    unfold checkPortion
    split
    · split <;> rfl
    · rfl
  rw [activeBank, checksPass, State.tbsOf, get_kind_all, hactive]
  rfl

end

end Sys2Proof.Proofs
end

section
/-! What the parts of a pass leave as it was: the lines but for the window of the frame that leaves at P1, the exchange, the
waiting commands, the workpiece record and the active banks. -/
namespace Sys2Proof.Proofs

open Sys2Proof.Machine Sys2Proof.Laws

/-- A payload rewritten in a run of bytes alone. -/
structure RewrittenIn (lo hi : Nat) (m m' : Memory 8) : Prop where
  wf   : Memory.wf m = true → Memory.wf m' = true
  kept : ∀ a, (a < lo ∨ hi ≤ a) → Memory.read m' a = Memory.read m a

/-- A line whose frame's payload is rewritten in a run of bytes alone. -/
inductive LineRewritten (lo hi : Nat) : Option Sent → Option Sent → Prop
  | none : LineRewritten lo hi none none
  | some {f : Sent} {m : Memory 8} (h : RewrittenIn lo hi f.frame.payload m) :
      LineRewritten lo hi (some f) (some { f with frame := { f.frame with payload := m } })

theorem RewrittenIn.refl (lo hi : Nat) (m : Memory 8) : RewrittenIn lo hi m m := ⟨id, fun _ _ => rfl⟩

theorem RewrittenIn.trans {lo hi : Nat} {a b c : Memory 8} (h : RewrittenIn lo hi a b) (h' : RewrittenIn lo hi b c) :
    RewrittenIn lo hi a c := ⟨fun hw => h'.wf (h.wf hw), fun i hi => (h'.kept i hi).trans (h.kept i hi)⟩

theorem RewrittenIn.writeAll {lo hi off : Nat} {m : Memory 8} {bytes : List Byte} (hlo : lo ≤ off) (hhi : off + bytes.length ≤ hi) :
    RewrittenIn lo hi m (Memory.writeAll m off bytes) :=
  ⟨fun hw => wf_writeAll hw, fun a ha => read_writeAll_other (by omega)⟩

theorem LineRewritten.refl (lo hi : Nat) (l : Option Sent) : LineRewritten lo hi l l := by
  cases l with
  | none => exact .none
  | some f => exact .some (.refl lo hi f.frame.payload)

theorem LineRewritten.trans {lo hi : Nat} {a b c : Option Sent} (h : LineRewritten lo hi a b) (h' : LineRewritten lo hi b c) :
    LineRewritten lo hi a c := by
  cases h with
  | none => exact h'
  | some h =>
    cases h' with
    | some h' => exact .some (h.trans h')

/-- What a part of a pass leaves as it was; `window` is the pass's window. -/
structure InPass (window : Nat) (s t : State) : Prop where
  riu       : t.riu = { s.riu with sent1 := t.riu.sent1 }
  line      : LineRewritten (window + 36) (window + 240) s.riu.sent1 t.riu.sent1
  rqu       : t.rqu = s.rqu
  pending   : t.pending = s.pending
  workpiece : t.tcu.workpiece = s.tcu.workpiece
  drain     : t.tcu.drainDue = s.tcu.drainDue ∨ t.tcu.drainDue = none
  active    : ∀ k, activeBank k t = activeBank k s

/-- A drain that is due may write into the window's point slots alone. -/
def DrainsWithin (window : Nat) (s : State) : Prop :=
  s.tcu.drainDue = none ∨ (s.tcu.drainDue = some window ∧ stationField (·.pointSlots) s ≤ 2)

section
variable {window : Nat} {s t u : State}

theorem InPass.refl (window : Nat) (s : State) : InPass window s s :=
  ⟨rfl, .refl .., rfl, rfl, rfl, .inl rfl, fun _ => rfl⟩

theorem InPass.trans (h : InPass window s t) (h' : InPass window t u) : InPass window s u where
  riu := by rw [h'.riu, h.riu]
  line := h.line.trans h'.line
  rqu := h'.rqu.trans h.rqu
  pending := h'.pending.trans h.pending
  workpiece := h'.workpiece.trans h.workpiece
  drain := by
    rcases h'.drain with hd | hd
    · rw [hd]
      exact h.drain
    · exact .inr hd
  active k := (h'.active k).trans (h.active k)

theorem InPass.of_touches (h : Touches [.cen, .thu, .tcu, .pcc, .mgd, .evu] s t) (hrest : tcuRest t = tcuRest s) : InPass window s t where
  riu := by rw [h.riu (by decide)]
  line := by
    rw [h.riu (by decide)]
    exact .refl ..
  rqu := h.rqu (by decide)
  pending := h.pending
  workpiece := congrArg Prod.fst hrest
  drain := .inl (congrArg Prod.snd hrest)
  active k := activeBank_congr (h.tbs (by decide))

theorem InPass.of_touches' (h : Touches [.cen, .thu, .pcc, .mgd, .evu] s t) : InPass window s t :=
  .of_touches (h.mono (by decide)) (tcuRest_of_touches s (h.mono (by decide)))

theorem InPass.writeReturn {off : Nat} {bytes : List Byte} (hlo : window + 36 ≤ off) (hhi : off + bytes.length ≤ window + 240) :
    InPass window s (writeReturn off bytes s) := by
  refine ⟨rfl, ?_, rfl, rfl, rfl, .inl rfl, fun _ => rfl⟩
  change LineRewritten _ _ s.riu.sent1 (s.riu.sent1.map _)
  cases s.riu.sent1 with
  | none => exact .none
  | some f => exact .some (.writeAll hlo hhi)

theorem InPass.stationField (h : InPass window s t) (f : StationRecord → Nat) : stationField f t = stationField f s := by
  have hrecord : recordInForce t = recordInForce s := by
    have hriu : t.riu.record = s.riu.record := (congrArg Riu.record h.riu).trans rfl
    have hactive := h.active .stationRecord
    unfold recordInForce stationRecord
    rw [hriu, hactive]
  simp only [Machine.stationField, hrecord]

theorem DrainsWithin.of_inPass (h : DrainsWithin window s) (hp : InPass window s t) : DrainsWithin window t := by
  rcases hp.drain with hd | hd
  · rw [DrainsWithin, hd, hp.stationField]
    exact h
  · exact .inl hd

theorem InPass.writePoints {ps : List Point} {i : Nat} (h : i + ps.length ≤ 2) : InPass window s (writePoints window i ps s) := by
  induction ps generalizing i s with
  | nil => exact .refl ..
  | cons p ps ih =>
    simp only [List.length_cons] at h
    refine (InPass.writeReturn ?_ ?_).trans (ih (by omega))
    · simp only [windowPoint]
      omega
    · rw [length_pointBytes, windowPoint]
      omega

theorem InPass.drainPoints (h : DrainsWithin window s) : InPass window s (drainPoints s) := by
  rcases h with hd | ⟨hd, hslots⟩
  · rw [drainPoints_quiet hd]
    exact .refl ..
  · have hdrain : Machine.drainPoints s = (let s1 := Machine.writePoints window 0 (s.tcu.queue.take (Machine.stationField (·.pointSlots) s)) s
        { s1 with tcu := { s1.tcu with queue := s.tcu.queue.drop (Machine.stationField (·.pointSlots) s), drainDue := none } }) := by
      simp only [Machine.drainPoints, hd]
    have hlen : (s.tcu.queue.take (Machine.stationField (·.pointSlots) s)).length ≤ 2 := by
      simp only [List.length_take]
      omega
    have hpoints := InPass.writePoints (window := window) (s := s) (i := 0) (by omega :
      0 + (s.tcu.queue.take (Machine.stationField (·.pointSlots) s)).length ≤ 2)
    rw [hdrain]
    exact ⟨hpoints.riu, hpoints.line, hpoints.rqu, hpoints.pending, hpoints.workpiece, .inr rfl, hpoints.active⟩

theorem InPass.tables (h : ∀ k, activeBank k t = activeBank k s) (htouches : Touches [.tbs, .evu] s t) : InPass window s t where
  riu := by rw [htouches.riu (by decide)]
  line := by
    rw [htouches.riu (by decide)]
    exact .refl ..
  rqu := htouches.rqu (by decide)
  pending := htouches.pending
  workpiece := by rw [htouches.tcu (by decide)]
  drain := .inl (by rw [htouches.tcu (by decide)])
  active := h

/-- A row's step taken within a pass. -/
theorem InPass.takeRow (h : DrainsWithin window s) (p : Part) : InPass window s (takeRow p s) := by
  cases p with
  | drain => exact InPass.drainPoints h
  | resolve x => exact .of_touches (t := resolveTouch x s) (by simp) (by simp)
  | late x => exact .of_touches (t := lateResolution x s) (by simp) (by simp)
  | drop x => exact .of_touches (t := dropComplete x s) (by simp) (by simp)
  | pick x l => exact .of_touches (t := pickComplete x l s) (by simp) (by simp)
  | release z => exact .of_touches' (t := deferredRelease z s) (by simp)
  | rearm x => exact .of_touches (t := rearmExpiry x s) (by simp) (by simp)
  | autoAdvance x => exact .of_touches' (t := autoAdvance x s) (by simp)
  | stepTimeout x => exact .of_touches' (t := stepTimeout x s) (by simp)
  | check k => exact .tables (t := checkComplete k s) (fun j => activeBank_checkComplete k) (by simp)
  | _ => exact .refl ..

end

end Sys2Proof.Proofs
end

section
/-! The parts of a return pass and of an outbound pass, in any order the world chooses: what they leave as it was. -/
namespace Sys2Proof.Proofs

open Sys2Proof.Machine Sys2Proof.Laws

section
variable {window : Nat} {s t u : State}

theorem length_positionBytes (pos : Vec3) (capture : BitVec 64) (epoch : BitVec 16) (flags : BitVec 6) :
    (positionBytes pos capture epoch flags).length = 24 := by simp [positionBytes, length_leBytes, length_leBytesInt]

theorem length_correctArm_block (x : Arm) (input : Memory 8) (s : State) : (correctArm x input s).block.length = 24 := by
  unfold correctArm
  split
  · split
    · exact length_positionBytes ..
    · split <;> exact length_positionBytes ..
  · exact length_positionBytes ..

theorem length_detailWords (d : Detail) : (detailWords d).length = 3 := by cases d <;> rfl

theorem length_eventBytes (source : Nat) (overrun : Bool) (pending : Nat) {detail : List Word} (h : detail.length = 3) :
    (eventBytes source overrun pending detail).length = 20 := by
  obtain ⟨a, b, c, rfl⟩ := List.length_eq_three.mp h
  simp [eventBytes, wordsBytes, length_leBytes]

theorem length_selectEvent (s : State) : (selectEvent s).1.length = 20 := by
  unfold selectEvent
  split
  · exact length_eventBytes _ _ _ rfl
  · refine length_eventBytes _ _ _ ?_
    cases (sourceOf s _).detail <;> simp [length_detailWords]

theorem InPass.selectEvent (s : State) : InPass window s (selectEvent s).2 := .of_touches' (by simp)

theorem InPass.correctArm (x : Arm) (input : Memory 8) (s : State) : InPass window s (correctArm x input s).state :=
  .of_touches (by simp) (by simp)

/-- A pass's own part, no request waiting. -/
theorem InPass.takeOwn {input : Memory 8} {sync : BitVec 64} {w : PassWork} (p : Part) (hidle : w.state.rqu.awaiting = none) :
    InPass window w.state (takeOwn ⟨input, window, sync⟩ p w).state := by
  have chained (x : Arm) (f : Chain → State → State) (hf : ∀ r s, InPass window s (f r s)) :
      InPass window w.state (passChain x f w).state := by
    unfold passChain
    split
    · exact hf _ _
    · exact .refl ..
  cases p with
  | thermal =>
    exact .of_touches' (t := thermalPass sync input w.thermal w.state) (by simp)
  | correct x =>
    refine (InPass.correctArm x input w.state).trans (.writeReturn ?_ ?_)
    · cases x <;> simp only [windowPosition] <;> omega
    · rw [length_correctArm_block]
      cases x <;> simp only [windowPosition] <;> omega
  | numeric x => exact chained x _ fun r s => .of_touches' (by simp)
  | limits x => exact chained x _ fun r s => .of_touches' (by simp)
  | monitor x => exact chained x _ fun r s => .of_touches' (by simp)
  | status x => exact .of_touches' (t := readStatus x input w.state) (by simp)
  | rack => exact .of_touches' (t := rackPass input w.spared w.rack w.state) (by simp)
  | checks => exact .tables (t := checksPass w.state) (fun _ => activeBank_checksPass) (by simp)
  | request =>
    change InPass window w.state (takeAwaiting w.state)
    rw [takeAwaiting_quiet hidle]
    exact .refl ..
  | select =>
    refine (InPass.selectEvent w.state).trans (.writeReturn ?_ ?_)
    · exact Nat.add_le_add_left (by decide : 36 ≤ windowEvent) window
    · rw [length_selectEvent]
      dsimp only [windowEvent]
      omega
  | _ => exact .refl ..

/-- A part that the world has chosen, no request waiting. -/
theorem InPass.takeChosen {input : Memory 8} {sync : BitVec 64} {w : PassWork} (p : Part) (hidle : w.state.rqu.awaiting = none)
    (hdrain : DrainsWithin window w.state) : InPass window w.state (takeChosen ⟨input, window, sync⟩ w p).state := by
  unfold Machine.takeChosen
  split
  · exact .of_touches' (by simp)
  · split
    · exact .of_touches' (by simp)
    · split
      · split
        · split
          · exact InPass.takeOwn (w := { w with todo := w.todo.erase p }) p hidle
          · exact .refl ..
        · exact InPass.takeRow hdrain p
      · exact .refl ..

/-- Parts taken one after the other, each leaving as it was what a part leaves. -/
theorem InPass.foldl {α β : Type} {f : β → α → β} {st : β → State}
    (hf : ∀ b a, (st b).rqu.awaiting = none → DrainsWithin window (st b) → InPass window (st b) (st (f b a))) (l : List α) (b : β)
    (hidle : (st b).rqu.awaiting = none) (hdrain : DrainsWithin window (st b)) : InPass window (st b) (st (l.foldl f b)) := by
  induction l generalizing b with
  | nil => exact .refl ..
  | cons a l ih =>
    have hpart := hf b a hidle hdrain
    exact hpart.trans (ih (f b a) (by rw [hpart.rqu, hidle]) (hdrain.of_inPass hpart))

/-- The parts of a return pass in any order, no request waiting. -/
theorem InPass.runParts {input : Memory 8} {sync : BitVec 64} {w : PassWork} (order : List Part)
    (hidle : w.state.rqu.awaiting = none) (hdrain : DrainsWithin window w.state) :
    InPass window w.state (runParts ⟨input, window, sync⟩ order w).state := by
  have hchosen := InPass.foldl (f := Machine.takeChosen ⟨input, window, sync⟩) (st := PassWork.state) (window := window)
    (fun b a hb hd => InPass.takeChosen a hb hd) order w hidle hdrain
  refine hchosen.trans (InPass.foldl (f := fun w p => Machine.takeOwn ⟨input, window, sync⟩ p w) (st := PassWork.state)
    (fun b a hb _ => InPass.takeOwn a hb) _ _ ?_ ?_)
  · rw [hchosen.rqu, hidle]
  · exact hdrain.of_inPass hchosen

/-- The request and the guard word of an outbound pass in any order, no request waiting. -/
theorem InPass.takeOutbound {w : OutWork} (p : Part) (hidle : w.state.rqu.awaiting = none) (hdrain : DrainsWithin window w.state) :
    InPass window w.state (takeOutbound w p).state := by
  unfold Machine.takeOutbound
  split
  · split
    · dsimp only
      split
      · change InPass window w.state (takeAwaiting w.state)
        rw [takeAwaiting_quiet hidle]
        exact .refl ..
      · exact .refl ..
    · exact .refl ..
  · exact InPass.takeRow hdrain p

theorem InPass.runOutbound (out : OutboundChoices) (r : RequestSlot) (hidle : s.rqu.awaiting = none)
    (hdrain : DrainsWithin window s) : InPass window s (runOutbound out r s).state := by
  have hchosen := InPass.foldl (f := Machine.takeOutbound) (st := OutWork.state) (window := window)
    (fun b a hb hd => InPass.takeOutbound a hb hd) out.order
    ⟨if out.late && mayFollowPass r then [.guardWord] else [.request, .guardWord], s, 0⟩ hidle hdrain
  refine hchosen.trans (InPass.foldl (f := Machine.takeOutbound) (st := OutWork.state)
    (fun b a hb hd => InPass.takeOutbound a hb hd) _ _ ?_ ?_)
  · rw [hchosen.rqu, hidle]
  · exact hdrain.of_inPass hchosen

end

end Sys2Proof.Proofs
end

section
/-! The return pass as a whole, and RETURN_PASS's reply (O59). -/
namespace Sys2Proof.Proofs

open Sys2Proof.Machine Sys2Proof.Laws

section
variable {m : Memory 8} {off : Nat} {s : State}

theorem length_wordsBytes (ws : List Word) : (wordsBytes ws).length = 4 * ws.length := by
  induction ws with
  | nil => rfl
  | cons v ws ih =>
    simp only [wordsBytes, List.length_append, length_leBytes, ih, List.length_cons]
    omega

/-- A word of a run of words. -/
theorem payloadWord_of_holdsAt {ws : List Word} {i : Nat} (h : HoldsAt m off (wordsBytes ws)) (hi : i < ws.length) :
    payloadWord m (off + 4 * i) = ws.getD i 0 := by
  induction ws generalizing off i with
  | nil => simp at hi
  | cons v ws ih =>
    obtain ⟨hv, hrest⟩ := holdsAt_append.mp h
    cases i with
    | zero =>
      have hread : Memory.readLE m off 4 = v.toNat := readLE_bitVec hv (by decide)
      simp [payloadWord, hread]
    | succ i =>
      rw [length_leBytes] at hrest
      rw [show off + 4 * (i + 1) = off + 4 + 4 * i by omega, ih hrest (by simpa using hi), List.getD_cons_succ]

theorem length_replyBytes (s : State) : (replyBytes s).length = 72 := by
  simp [replyBytes, length_wordsBytes, length_leBytes]

/-- What a reply slot holds (10.2). -/
def ShowsReply (m : Memory 8) (o : Nat) (s : State) : Prop :=
  let e := s.rqu.exchange
  Memory.read m o = s.riu.address.getD 0 ∧ Memory.read m (o + 1) = e.code
    ∧ Memory.readLE m (o + 2) 2 = e.tag.toNat
    ∧ Memory.read m (o + 4) = (match e.result with
        | none => 0
        | some .done => 1
        | some .accepted => 2
        | some .busy => 3
        | some .wrongState => 4
        | some .badParam => 5
        | some .notReady => 6
        | some .deadlock => 7
        | some .refused => 8
        | some .wrongStation => 9
        | some .unknownCode => 10)
    ∧ Memory.readLE m (o + 5) 3 = 0
    ∧ (∀ i < 16, payloadWord m (o + 8 + 4 * i) = e.data.getD i 0)

theorem showsReply_of_holdsAt (h : HoldsAt m off (replyBytes s)) : ShowsReply m off s := by
  simp only [replyBytes, holdsAt_append, holdsAt_cons, holdsAt_nil, and_true, List.length_append, List.length_cons,
    List.length_nil, length_leBytes] at h
  obtain ⟨⟨⟨⟨haddress, hcode⟩, htag⟩, hresult, h5, h6, h7⟩, hdata⟩ := h
  refine ⟨haddress, hcode, readLE_bitVec htag (by decide), ?_, ?_, fun i hi => ?_⟩
  · refine Eq.trans hresult ?_
    cases s.rqu.exchange.result with
    | none => rfl
    | some r => cases r <;> rfl
  · simp only [Memory.readLE, show off + 5 = off + (0 + 1 + 1) + 2 + 1 from rfl, h5, h6, h7]
    rfl
  · refine (payloadWord_of_holdsAt hdata (by simp [hi])).trans ?_
    simp only [List.getD_eq_getElem?_getD, List.getElem?_take, hi, if_true, List.getElem?_append, List.getElem?_replicate]
    by_cases hlen : i < s.rqu.exchange.data.length
    · simp [hlen]
    · rw [if_neg hlen, if_pos (by omega)]
      simp [hlen]

/-- A STATION RECORD that keeps its rules has at most two point slots. -/
theorem pointSlots_le_two (h : BanksSound s) : activeField (·.pointSlots) s ≤ 2 := by
  unfold activeField stationRecord
  cases hbank : activeBank .stationRecord s with
  | none => exact Nat.zero_le 2
  | some b =>
    have hkeeps := (h .stationRecord).1 b hbank
    have hrule := List.all_eq_true.mp hkeeps (inRange b 4 0 2) (by simp [rulesAgainst, stationRules])
    simp only [inRange, decide_eq_true_eq] at hrule
    exact hrule.2

end

/-! ### Before and after the parts -/

/-- A return pass before its parts are taken. -/
def passStart (window : Nat) (f : RingFrame) (s : State) : State :=
  openDrain window (takeFrame f (refreshRecord (bothArms refreshMap (clearDue s))))

section
variable {window : Nat} {f : RingFrame} {s t : State}

theorem InPass.clearDue : InPass window s (clearDue s) :=
  ⟨rfl, .refl .., rfl, rfl, rfl, .inr rfl, fun _ => rfl⟩

theorem InPass.refreshMaps : InPass window s (bothArms refreshMap s) :=
  ⟨rfl, .refl .., rfl, rfl, rfl, .inl rfl, fun _ => rfl⟩

theorem length_emptyPointBytes : emptyPointBytes.length = 32 := rfl

theorem InPass.emptyPoint {i : Nat} (hi : i < 2) :
    InPass window s (Machine.writeReturn (window + windowPoint i) emptyPointBytes s) := by
  refine .writeReturn ?_ ?_
  · rw [windowPoint]
    omega
  · rw [length_emptyPointBytes, windowPoint]
    omega

/-- A block with the drain of the window due. -/
def drainOf (window : Nat) (s : State) : State := { s with tcu := { s.tcu with drainDue := some window } }

/-- The opening of the point slots, against the block with the drain of the pass due. -/
theorem InPass.openDrain (hnone : s.tcu.drainDue = none) : InPass window (drainOf window s) (openDrain window s) := by
  unfold Machine.openDrain
  split
  · have hslots := (InPass.emptyPoint (window := window) (s := s) (i := 1) (by decide)).trans (.emptyPoint (i := 0) (by decide))
    exact ⟨hslots.riu, hslots.line, hslots.rqu, hslots.pending, hslots.workpiece, .inl rfl, hslots.active⟩
  · exact ⟨rfl, .refl .., rfl, rfl, rfl, .inr hnone, fun _ => rfl⟩

theorem InPass.frameTaken {u : State} (h : InPass window s u) :
    InPass window (drainOf window (takeFrame f (refreshRecord s))) (drainOf window (takeFrame f (refreshRecord u))) where
  riu := by
    change ({ u.riu with record := activeBank .stationRecord u, sent1 := some ⟨f, true⟩ } : Riu) = { s.riu with
      record := activeBank .stationRecord s, sent1 := some ⟨f, true⟩ }
    rw [h.active, h.riu]
  line := LineRewritten.refl _ _ (some ⟨f, true⟩)
  rqu := by exact h.rqu
  pending := by exact h.pending
  workpiece := by exact h.workpiece
  drain := .inl rfl
  active := by exact h.active

/-- The pass's start, against the block with the frame at the part, the active STATION RECORD in force and the drain due. -/
theorem InPass.passStart : InPass window (drainOf window (takeFrame f (refreshRecord s))) (passStart window f s) :=
  (InPass.clearDue.trans .refreshMaps).frameTaken.trans (InPass.openDrain rfl)

theorem drainsWithin_passStart (h : activeField (·.pointSlots) s ≤ 2) : DrainsWithin window (passStart window f s) := by
  refine DrainsWithin.of_inPass (.inr ⟨rfl, ?_⟩) InPass.passStart
  have hrecord : recordInForce (drainOf window (takeFrame f (refreshRecord s))) = stationRecord s := refreshRecord_recordInForce s
  rw [Machine.stationField, hrecord]
  exact h

/-- What a return pass leaves: the frame in flight is cleared, the STATION RECORD in force, the reply at its place, and the
frame's bytes outside the written part of the window as they came. -/
structure Returned (window : Nat) (f : RingFrame) (s t : State) : Prop where
  rqu       : t.rqu = s.rqu
  pending   : t.pending = s.pending
  workpiece : t.tcu.workpiece = s.tcu.workpiece
  active    : ∀ k, activeBank k t = activeBank k s
  dropped   : s.riu.p1Up = false →
    t.riu = { s.riu with inFlight := none, record := activeBank .stationRecord s, sent1 := none }
  sent      : s.riu.p1Up = true → ∃ m, t.riu = { s.riu with
      inFlight := none, record := activeBank .stationRecord s, sent1 := some ⟨{ f with payload := m }, true⟩ }
    ∧ RewrittenIn (window + 36) (window + 240) f.payload m ∧ ShowsReply m (window + 36) s

theorem returned_finishReturn (h : InPass window (drainOf window (takeFrame f (refreshRecord s))) t) (hwf : Memory.wf f.payload = true) :
    Returned window f s (finishReturn window t) := by
  have hline : ∃ m, t.riu.sent1 = some ⟨{ f with payload := m }, true⟩ ∧ RewrittenIn (window + 36) (window + 240) f.payload m := by
    generalize hl : t.riu.sent1 = l
    have hrewritten : LineRewritten (window + 36) (window + 240) (some ⟨f, true⟩) l := hl ▸ h.line
    cases hrewritten with
    | some hm => exact ⟨_, rfl, hm⟩
  obtain ⟨m, hsent, hm⟩ := hline
  have hriu : t.riu = { s.riu with record := activeBank .stationRecord s, sent1 := some ⟨{ f with payload := m }, true⟩ } :=
    h.riu.trans (by rw [hsent]; rfl)
  have hdropLine (u : State) : dropLine1 u = { u with riu := { u.riu with
      sent1 := if u.riu.p1Up then u.riu.sent1 else none } } := by
    unfold dropLine1
    split <;> rfl
  have hfinish : (finishReturn window t).riu = { s.riu with
      inFlight := none, record := activeBank .stationRecord s,
      sent1 := if s.riu.p1Up then
        some ⟨{ f with payload := Memory.writeAll m (window + windowReply) (replyBytes t) }, true⟩ else none } := by
    rw [finishReturn, hdropLine]
    simp only [Machine.writeReturn, hriu]
    rfl
  refine ⟨?_, ?_, ?_, fun k => ?_, fun hup => ?_, fun hup => ?_⟩
  · rw [finishReturn, hdropLine]
    exact h.rqu
  · rw [finishReturn, hdropLine]
    exact h.pending
  · rw [finishReturn, hdropLine]
    exact h.workpiece
  · rw [finishReturn, hdropLine]
    exact h.active k
  · rw [hfinish, hup]
    rfl
  · refine ⟨_, by rw [hfinish, if_pos hup], ?_, ?_⟩
    · exact hm.trans (.writeAll (Nat.le_refl _) (by rw [length_replyBytes, windowReply]; omega))
    · have hreply : replyBytes t = replyBytes s := by
        have haddress : t.riu.address = s.riu.address := by rw [hriu]
        simp only [replyBytes, h.rqu, haddress]
        rfl
      rw [hreply]
      exact showsReply_of_holdsAt (holdsAt_writeAll (hm.wf hwf))

/-- A return pass, whatever the world's choices, no request waiting. -/
theorem returned_returnPass {n : InFlight} {input : Memory 8} {choices : PassChoices} (hwindow : n.window = window)
    (hidle : s.rqu.awaiting = none) (hslots : activeField (·.pointSlots) s ≤ 2) (hwf : Memory.wf f.payload = true) :
    Returned window f s (returnPass n f input choices s) := by
  subst hwindow
  have hparts := InPass.runParts (window := n.window) (input := input) (sync := n.sync)
    (w := passWork choices (passStart n.window f s)) choices.order
    ((congrArg Rqu.awaiting (InPass.passStart (window := n.window) (f := f) (s := s)).rqu).trans hidle)
    (drainsWithin_passStart hslots)
  exact returned_finishReturn (InPass.passStart.trans hparts) hwf

end

/-! ### O59 -/

/-- Settles O59: the frame's return is the one in flight; the parts of the pass, in any order, leave the exchange, the waiting
commands and the bytes outside the window's written part as they were, and the reply is written last. -/
theorem returnPassReplies : Obligations.ReturnPassReplies := by
  unfold Obligations.ReturnPassReplies
  intro s elapsed f c n hsettled hservice hsound hup hcycle hwf hflight hnumber hloss
  have hopen : portOpen .p2 s = true := portOpen_p2 hsettled.1 hup
  have hback : returnOf f { s with riu := laterRiu elapsed s } = some n := by
    simp [returnOf, laterRiu, hflight, hnumber, hservice.2, hloss]
  have hexec : exec (.cycleFrameReturn elapsed f c) s
      = .next (returnPass n f f.payload c { s with riu := laterRiu elapsed s }) := by
    change execCycleFrameReturn elapsed f c s = _
    unfold execCycleFrameReturn
    rw [hopen, hcycle, arriveBack_settled hsettled]
    simp only [Bool.and_self, if_true, hback]
  have hreturned : Returned n.window f { s with riu := laterRiu elapsed s }
      (returnPass n f f.payload c { s with riu := laterRiu elapsed s }) :=
    returned_returnPass rfl hsettled.2.1.1 (pointSlots_le_two hsound) hwf
  refine ⟨fun hdown => ⟨_, hexec, hreturned.dropped hdown, hreturned.rqu⟩, fun hp1 => ?_⟩
  obtain ⟨m, hriu, hkept, hreply⟩ := hreturned.sent hp1
  exact ⟨_, { f with payload := m }, hexec, hriu, hreturned.rqu, hreturned.pending, hreturned.workpiece, rfl, hreply, hkept.kept⟩

end Sys2Proof.Proofs
end

section
/-! The outbound pass: the request slot's row, the countdowns, and the block as the request meets it. -/
namespace Sys2Proof.Proofs

open Sys2Proof.Machine Sys2Proof.Laws

/-! ### The row of a request slot -/

section
variable {r : RequestSlot} {s : State} {c : RequestCode}

theorem requestOf_requestByte (c : RequestCode) : requestOf (requestByte c) = some c := by cases c <;> decide

theorem requestByte_ne_zero (c : RequestCode) : requestByte c ≠ 0 := by cases c <;> decide

theorem requestOf_eq_none {b : Byte} (h : ∀ c, requestByte c ≠ b) : requestOf b = none := by
  rw [requestOf, List.find?_eq_none]
  exact fun c _ => by simpa using h c

theorem takeRequest_none (h : r.code = 0) : takeRequest r s = s := if_pos h

theorem takeRequest_wrongStation (h : r.code ≠ 0) (hother : s.riu.address ≠ some r.address) :
    takeRequest r s = withReply r.code ⟨.wrongStation, []⟩ s := by
  rw [takeRequest, if_neg h, if_pos hother]

theorem takeRequest_unknownCode (h : r.code ≠ 0) (hmine : s.riu.address = some r.address) (hcode : ∀ q, requestByte q ≠ r.code) :
    takeRequest r s = withReply r.code ⟨.unknownCode, []⟩ s := by
  rw [takeRequest, if_neg h, if_neg (not_not_intro hmine), requestOf_eq_none hcode]

theorem takeRequest_code (hmine : s.riu.address = some r.address) (hcode : r.code = requestByte c) :
    takeRequest r s = serveSlot c r s := by
  rw [takeRequest, hcode, if_neg (requestByte_ne_zero c), if_neg (not_not_intro hmine), requestOf_requestByte]

/-- A code's row is what the slot takes, but for the offset that a TIP_SET keeps. -/
theorem exec_row {i : Instr} (hmine : s.riu.address = some r.address) (hc : c ≠ .tipSet)
    (hi : exec i s = .next (serve c (ownerOf c r) s)) (hcode : r.code = requestByte c) :
    exec i s = .next (takeRequest r s) := by
  rw [hi, takeRequest_code hmine hcode, serveSlot, if_neg hc]

/-- A TIP_SET's row, the offset kept first. -/
theorem exec_tipSet_row (hmine : s.riu.address = some r.address) (hcode : r.code = 0x20) :
    exec (.tipSet r.target r.params) (keepOffset r.target.toNat s) = .next (takeRequest r s) := by
  rw [takeRequest_code (c := .tipSet) hmine hcode]
  rfl

end

/-! ### The countdowns and the block before the request -/

/-- A trigger whose rearm countdown has moved. -/
def tickedTcu (u : TcuArm) : TcuArm :=
  { u with trigger := match u.trigger with
      | .rearm n => .rearm (n - 1)
      | other => other }

/-- A session whose step timer has moved. -/
def tickedPcc (p : PccArm) : PccArm :=
  { p with session := if inStep p.session then { p.session with timer := p.session.timer.map (fun n => n - 1) } else p.session }

/-- An auto-advance countdown that has moved. -/
def tickedThu (t : ThuArm) : ThuArm := { t with countdown := t.countdown.map (fun n => n - 1) }

section
variable {s : State} {f : RingFrame} {r : RequestSlot} {elapsed : Nat}

theorem tickRearm_eq (x : Arm) (s : State) : tickRearm x s = s.onTcu x tickedTcu := by
  unfold tickRearm
  split
  · next n h => exact onTcu_congr (by simp only [tickedTcu, show (s.tcuOf x).trigger = .rearm n from h])
  · next h =>
    have hself : tickedTcu (s.tcuOf x) = s.tcuOf x := by
      unfold tickedTcu
      split
      · next n hn => exact absurd hn (h n)
      · rfl
    rw [State.onTcu, modify_self hself]

theorem tickStep_eq (x : Arm) (s : State) : tickStep x s = s.onPcc x tickedPcc := by
  unfold tickStep
  split
  · next h => exact onPcc_congr (by simp only [tickedPcc, show inStep (s.pccOf x).session = true from h, if_true])
  · next h =>
    have hself : tickedPcc (s.pccOf x) = s.pccOf x := by
      simp only [tickedPcc, show ¬ inStep (s.pccOf x).session = true from h]
      rfl
    rw [State.onPcc, modify_self hself]

theorem tickFrame_eq (s : State) : tickFrame s = { s with
    tbs := s.tbs.all unfresh, tcu := { s.tcu with arm := s.tcu.arm.both tickedTcu },
    pcc := { s.pcc with arm := s.pcc.arm.both tickedPcc },
    thu := { s.thu with arm := if s.riu.station = .run then s.thu.arm.both tickedThu else s.thu.arm } } := by
  have hticks (u : State) : bothArms tickStep (bothArms tickRearm u) = { u with
      tcu := { u.tcu with arm := u.tcu.arm.both tickedTcu }, pcc := { u.pcc with arm := u.pcc.arm.both tickedPcc } } := by
    simp only [bothArms, tickRearm_eq, tickStep_eq]
    rfl
  rw [tickFrame, hticks]
  dsimp only
  split <;> rfl

/-- With no mark of a due step there is none to take down. -/
theorem clearDue_quiet (hx : ∀ x, (s.tcuOf x).touchDue = .none ∧ (s.pccOf x).changeDue = false) (hd : s.tcu.drainDue = none) :
    clearDue s = s := by
  have htcu (x : Arm) : s.tcu.arm.modify x (fun u => { u with touchDue := .none }) = s.tcu.arm :=
    modify_self (by rw [← (hx x).1]; rfl)
  have hpcc (x : Arm) : s.pcc.arm.modify x (fun p => { p with changeDue := false }) = s.pcc.arm :=
    modify_self (by rw [← (hx x).2]; rfl)
  have hdrain : ({ s.tcu with drainDue := none } : Tcu) = s.tcu := by rw [← hd]
  simp only [clearDue, bothArms, State.onTcu, State.onPcc, hdrain, htcu, hpcc]

theorem validArrival_eq (s : State) : validArrival s = { s with
    riu := { s.riu with
      missed := 0, deadline := s.riu.deadline.map (fun _ => clockAfter s.riu.clock (3 * periodNs s / 2)), ringLoss := false },
    evu := if s.riu.ringLoss then (post .ring .ringRestored s).evu else s.evu } := by
  unfold validArrival
  dsimp only
  split <;> rfl

/-- The RIU as an outbound pass leaves it, but for the frame it sends. -/
def outboundRiu (f : RingFrame) (s : State) : Riu :=
  { s.riu with
    clock := syncTime f, clockAtAlign := syncTime f, frameAtAlign := frameNumber f,
    inFlight := some ⟨frameNumber f, syncTime f, windowOffset s, ⟨none, none⟩⟩, missed := 0,
    deadline := s.riu.deadline.map (fun _ => clockAfter (syncTime f) (3 * periodNs s / 2)), ringLoss := false,
    sent1 := none, sent2 := none }

/-- The block once a valid cycle frame has been counted, its exchange opened. -/
def afterTicks (f : RingFrame) (q : Rqu) (s : State) : State :=
  { s with
    riu := outboundRiu f s, rqu := q, evu := if s.riu.ringLoss then (post .ring .ringRestored s).evu else s.evu,
    tbs := s.tbs.all unfresh, tcu := { s.tcu with arm := s.tcu.arm.both tickedTcu },
    pcc := { s.pcc with arm := s.pcc.arm.both tickedPcc },
    thu := { s.thu with arm := if s.riu.station = .run then s.thu.arm.both tickedThu else s.thu.arm } }

theorem clearDue_validArrival (hx : ∀ x, (s.tcuOf x).touchDue = .none ∧ (s.pccOf x).changeDue = false)
    (hd : s.tcu.drainDue = none) : clearDue (validArrival s) = validArrival s := by
  rw [validArrival_eq]
  exact clearDue_quiet hx hd

/-- What a valid cycle frame does before its request is taken, at a block with nothing due. -/
theorem beginOutbound_eq (h : Settled elapsed s) : beginOutbound f r (realign f (arriveP1 elapsed s))
    = afterTicks f ⟨⟨r.tag, r.code, none, []⟩, if r.code = 0 then none else some r⟩ s := by
  obtain ⟨-, ⟨-, hx, hd, -, -⟩, -⟩ := id h
  have hclear := clearDue_validArrival (s := realign f { s with riu := laterRiu elapsed s })
    (fun x => ⟨(hx x).1, (hx x).2.1⟩) hd
  rw [arriveP1_settled h, beginOutbound, hclear, validArrival_eq, tickFrame_eq]
  rfl

theorem takeAwaiting_afterTicks {q : Rqu} (hq : q = ⟨⟨r.tag, r.code, none, []⟩, if r.code = 0 then none else some r⟩) :
    takeAwaiting (afterTicks f q s) = takeRequest r (afterTicks f ⟨⟨r.tag, r.code, none, []⟩, none⟩ s) := by
  subst hq
  by_cases hcode : r.code = 0
  · rw [takeRequest_none hcode, if_pos hcode]
    rfl
  · rw [if_neg hcode]
    rfl

end

end Sys2Proof.Proofs
end

section
/-! The frame that an outbound pass sends on: the guard word and the cleared marks. -/
namespace Sys2Proof.Proofs

open Sys2Proof.Machine Sys2Proof.Laws

/-- The places of the written marks of the slots that a SLOT MAP places. -/
def markPlaces (slots : Option Bank) : List Nat := ((slots.map slotEntries).getD []).map (·.2)

section
variable {s : State} {f : RingFrame} {slots : Option Bank} {window guard : Nat}

/-- Marks cleared one after the other. -/
theorem foldl_clearMark (l : List (SlotName × Nat)) (f : RingFrame) (hwf : Memory.wf f.payload = true) :
    ∃ m, l.foldl (fun f e => writePayload e.2 [0] f) f = { f with payload := m } ∧ Memory.wf m = true
      ∧ ∀ a, Memory.read m a = if a ∈ l.map (·.2) then 0 else Memory.read f.payload a := by
  induction l generalizing f with
  | nil => exact ⟨f.payload, rfl, hwf, fun a => by simp⟩
  | cons e l ih =>
    obtain ⟨m, hm, hmwf, hread⟩ := ih (writePayload e.2 [0] f) (wf_writeAll hwf)
    refine ⟨m, hm, hmwf, fun a => ?_⟩
    rw [hread a, List.map_cons]
    by_cases hlater : a ∈ l.map (·.2)
    · rw [if_pos hlater, if_pos (List.mem_cons_of_mem _ hlater)]
    · rw [if_neg hlater]
      by_cases ha : a = e.2
      · rw [if_pos (by simp [ha]), ha]
        exact read_writeAll_same (i := 0) hwf (by simp)
      · rw [if_neg (by simpa [ha] using hlater)]
        exact read_writeAll_other (by simp only [List.length_singleton]; omega)

theorem clearMarks_eq (slots : Option Bank) (hwf : Memory.wf f.payload = true) :
    ∃ m, clearMarks slots f = { f with payload := m } ∧ Memory.wf m = true
      ∧ ∀ a, Memory.read m a = if a ∈ markPlaces slots then 0 else Memory.read f.payload a :=
  foldl_clearMark _ f hwf

theorem stampFrame_eq (slots : Option Bank) (hwf : Memory.wf f.payload = true) :
    ∃ m, stampFrame window guard slots f = { f with payload := m } ∧ Memory.wf m = true
      ∧ ∀ a, Memory.read m a = if a ∈ markPlaces slots then 0
          else Memory.read (Memory.writeAll f.payload (window + windowGuard) (leBytes 4 guard)) a :=
  clearMarks_eq (f := writePayload (window + windowGuard) (leBytes 4 guard) f) slots (wf_writeAll hwf)

/-- A frame's bytes outside the guard word. -/
theorem read_guard_other {m : Memory 8} {a : Nat} (ha : a < window + 32 ∨ window + 36 ≤ a) :
    Memory.read (Memory.writeAll m (window + windowGuard) (leBytes 4 guard)) a = Memory.read m a :=
  read_writeAll_other (by rw [length_leBytes]; exact ha)

/-- A byte and three zeros, read back. -/
theorem read_byteWord {m : Memory 8} {off a : Nat} {v : Byte} (hwf : Memory.wf m = true) :
    Memory.read (Memory.writeAll m off [v, 0, 0, 0]) a
      = if a = off then v else if off < a ∧ a < off + 4 then 0 else Memory.read m a := by
  obtain ⟨h0, h1, h2, h3, -⟩ := holdsAt_writeAll (off := off) (vs := [v, 0, 0, 0]) hwf
  split_ifs with hfirst hrest
  · rw [hfirst, h0]
  · obtain rfl | rfl | rfl : a = off + 1 ∨ a = off + 2 ∨ a = off + 3 := by omega
    · exact h1
    · exact h2
    · exact h3
  · refine read_writeAll_other ?_
    simp only [List.length_cons, List.length_nil]
    omega

/-- The four bits of the guard word, and the zero bytes above them. -/
theorem leBytes_guardWord (s : State) : leBytes 4 (guardWord s) =
    [(if (s.mgdOf .a).causes ≠ 0 then 1 else 0) + (if (s.mgdOf .a).creep ≠ 0 then 2 else 0)
      + (if (s.mgdOf .b).causes ≠ 0 then 4 else 0) + (if (s.mgdOf .b).creep ≠ 0 then 8 else 0), 0, 0, 0] := by
  have hbits (a b c d : Bool) : leBytes 4 (guardBits a b c d)
      = [(if a then 1 else 0) + (if b then 2 else 0) + (if c then 4 else 0) + (if d then 8 else 0), 0, 0, 0] := by
    cases a <;> cases b <;> cases c <;> cases d <;> rfl
  rw [guardWord, hbits]
  simp only [decide_eq_true_eq]

end

end Sys2Proof.Proofs
end

section
/-! A request is served alike whatever stands on the line of P2: no owner reads it, and none writes it. -/
namespace Sys2Proof.Proofs

open Sys2Proof.Machine Sys2Proof.Laws

/-- A block with another line at P2. -/
def sentAs (l : Option Sent) (s : State) : State := { s with riu := { s.riu with sent2 := l } }

/-- A step of the block that does not look at the line of P2. -/
def LineBlind (f : State → State) : Prop := ∀ l s, f (sentAs l s) = sentAs l (f s)

/-- An owner that does not look at the line of P2. -/
def OwnerBlind (own : State → Served) : Prop := ∀ l s, own (sentAs l s) = ⟨sentAs l (own s).state, (own s).reply⟩

section
variable {f g : State → State} {own own' : State → Served} {x : Arm} {z p t : Nat} {k : TableKind}

/-! ### Steps -/

theorem LineBlind.comp (hg : LineBlind g) (hf : LineBlind f) : LineBlind (fun s => g (f s)) :=
  fun l s => (congrArg g (hf l s)).trans (hg l (f s))

theorem LineBlind.ite {c : State → Prop} [∀ s, Decidable (c s)] (hc : ∀ l s, c (sentAs l s) ↔ c s) (hf : LineBlind f)
    (hg : LineBlind g) : LineBlind (fun s => if c s then f s else g s) := by
  intro l s
  dsimp only
  rw [if_congr (hc l s) (hf l s) (hg l s), apply_ite (sentAs l)]

theorem lineBlind_id : LineBlind (fun s => s) := fun _ _ => rfl

theorem lineBlind_ageLatch : LineBlind (ageLatch x) := by
  intro l s
  have htrigger : triggerOf (sentAs l s) x = triggerOf s x := rfl
  unfold ageLatch
  rw [htrigger]
  cases triggerOf s x <;> rfl

theorem lineBlind_emptyHistory : LineBlind (emptyHistory x) :=
  .ite (c := fun s => (s.tcuOf x).touchDue = .resolve) (fun _ _ => Iff.rfl)
    (.comp (f := fun s => s.onCen x (fun c => { c with history := [] })) lineBlind_ageLatch (fun _ _ => rfl)) (fun _ _ => rfl)

theorem lineBlind_takeDeferred : LineBlind (takeDeferred x) :=
  .ite (c := fun s => (s.thuOf x).deferred = true) (fun _ _ => Iff.rfl)
    (.ite (c := fun s => s.riu.station = .run) (fun _ _ => Iff.rfl) (fun _ _ => rfl) (fun _ _ => rfl)) lineBlind_id

theorem lineBlind_applyClaim : LineBlind (applyClaim x z) := by
  intro l s
  have hclaim : claimOutcome (sentAs l s) x z = claimOutcome s x z := rfl
  have hzone : zoneOf (sentAs l s) z = zoneOf s z := rfl
  unfold applyClaim
  rw [hclaim, hzone]
  split <;> rfl

theorem lineBlind_enterStep : LineBlind (enterStep x) := fun _ _ => rfl

theorem lineBlind_grantZone : LineBlind (grantZone x z) :=
  .ite (c := fun s => z = 0 ∧ (sessionOf s x).state = .waitZone) (fun _ _ => Iff.rfl) (fun _ _ => rfl) (fun _ _ => rfl)

theorem lineBlind_releaseZone {announce : Bool} : LineBlind (releaseZone announce z) := by
  intro l s
  have hzone : zoneOf (sentAs l s) z = zoneOf s z := rfl
  unfold releaseZone
  rw [hzone]
  cases zoneOf s z with
  | free => rfl
  | held h r w =>
    cases w with
    | true =>
      simp only [Bool.or_true, if_true]
      exact lineBlind_grantZone l (post (.zone h) (.released z) s)
    | false => cases announce <;> rfl

theorem lineBlind_askRelease : LineBlind (askRelease x z) := by
  intro l s
  have hzone : zoneOf (sentAs l s) z = zoneOf s z := rfl
  unfold askRelease
  rw [hzone]
  cases zoneOf s z with
  | free => rfl
  | held h r w =>
    exact LineBlind.ite (c := fun _ => h = x ∧ r = false) (fun _ _ => Iff.rfl)
      (.ite (c := fun s => insideOf s x z = .outside) (fun _ _ => Iff.rfl) lineBlind_releaseZone (fun _ _ => rfl)) lineBlind_id l s

theorem lineBlind_withdrawWait : LineBlind (withdrawWait x z) := by
  intro l s
  have hzone : zoneOf (sentAs l s) z = zoneOf s z := rfl
  unfold withdrawWait
  rw [hzone]
  cases zoneOf s z with
  | free => rfl
  | held h r w => exact LineBlind.ite (c := fun _ => h = otherArm x) (fun _ _ => Iff.rfl) (fun _ _ => rfl) lineBlind_id l s

theorem lineBlind_cancelWaiting : LineBlind (cancelWaiting x) :=
  .comp (g := fun s => clearSession x (onTrigger x restored s)) (fun _ _ => rfl) lineBlind_withdrawWait

theorem lineBlind_evictTip {v : PortState} : LineBlind (evictTip p v) := by
  intro l s
  have hport : portOf (sentAs l s) p = portOf s p := rfl
  unfold evictTip
  rw [hport]
  cases portOf s p with
  | holds u => exact LineBlind.ite (c := fun _ => v = .holds u) (fun _ _ => Iff.rfl) lineBlind_id (fun _ _ => rfl) l s
  | _ => rfl

theorem lineBlind_placeTip {v : PortState} : LineBlind (placeTip p v) := by
  intro l s
  cases v <;> rfl

theorem lineBlind_clearRack : LineBlind (clearRack p) :=
  .ite (c := fun s => rackNames p (sourceOf s (sourceNumber .rack)).detail = true) (fun _ _ => Iff.rfl) (fun _ _ => rfl) lineBlind_id

theorem lineBlind_dismount : LineBlind (dismount x) := by
  intro l s
  have htip : mountedTip (sentAs l s) x = mountedTip s x := rfl
  unfold dismount
  rw [htip]
  cases mountedTip s x <;> rfl

theorem lineBlind_mount : LineBlind (mount x t) :=
  .ite (c := fun _ => t = 0) (fun _ _ => Iff.rfl) lineBlind_id (fun _ _ => rfl)

theorem lineBlind_startCountdown : LineBlind (startCountdown x) :=
  .ite (c := fun s => (s.thuOf x).deferred = true) (fun _ _ => Iff.rfl) lineBlind_id (fun _ _ => rfl)

theorem lineBlind_enterRun : LineBlind enterRun :=
  .comp (g := startCountdown .b) lineBlind_startCountdown
    (.comp (f := fun s => { s with riu := { s.riu with station := .run } }) lineBlind_startCountdown (fun _ _ => rfl))

theorem lineBlind_leaveRun : LineBlind (leaveRun x) :=
  .comp (g := fun s => (onTrigger x standDown s).onThu x (fun t => { t with countdown := none })) (fun _ _ => rfl)
    (.ite (c := fun s => (sessionOf s x).state = .waitZone) (fun _ _ => Iff.rfl) lineBlind_cancelWaiting lineBlind_id)

theorem lineBlind_enterConfig : LineBlind enterConfig :=
  .comp (g := addMode) (fun _ _ => rfl) (.comp (g := leaveRun .b) lineBlind_leaveRun
    (.comp (f := fun s => { s with riu := { s.riu with station := .config } }) lineBlind_leaveRun (fun _ _ => rfl)))

theorem lineBlind_interruptSession : LineBlind (interruptSession x) := by
  intro l s
  have hsession : sessionOf (sentAs l s) x = sessionOf s x := rfl
  unfold interruptSession
  rw [hsession]
  dsimp only
  split
  · split <;> rfl
  · split <;> rfl
  · rfl

theorem lineBlind_warmReset : LineBlind warmReset := by
  intro l s
  unfold warmReset
  rw [lineBlind_interruptSession l s, lineBlind_interruptSession l]
  rfl

theorem lineBlind_activationEffect : LineBlind (activationEffect k) := by
  cases k with
  | armMap x =>
    exact .comp (f := fun s => s.onCen x (fun c => { c with satSeen := false, rangeSeen := false })) lineBlind_emptyHistory
      (fun _ _ => rfl)
  | stationRecord =>
    exact .ite (c := fun s => s.riu.deadline = none) (fun _ _ => Iff.rfl) (fun _ _ => rfl) lineBlind_id
  | _ => exact fun _ _ => rfl

theorem lineBlind_activate : LineBlind (activate k) := by
  intro l s
  change post .table _ (activationEffect k (sentAs l (s.onTbs k swapBanks))) = _
  rw [lineBlind_activationEffect]
  rfl

theorem lineBlind_abortStep : LineBlind (abortStep x) := by
  intro l s
  have hraised : whenDo (decide ((sessionOf s x).state ≠ .fault)) (raise x .abort) (sentAs l s)
      = sentAs l (whenDo (decide ((sessionOf s x).state ≠ .fault)) (raise x .abort) s) := by
    unfold whenDo
    split <;> rfl
  change clearSession x (onTrigger x restored (askRelease x 0 (post (.change x) (.aborted (sessionOf s x).state)
    (whenDo (decide ((sessionOf s x).state ≠ .fault)) (raise x .abort) (sentAs l s))))) = _
  rw [hraised]
  exact (congrArg (fun u => clearSession x (onTrigger x restored u)) (lineBlind_askRelease l
    (post (.change x) (.aborted (sessionOf s x).state) (whenDo (decide ((sessionOf s x).state ≠ .fault)) (raise x .abort) s)))).trans rfl

theorem lineBlind_beginSession {drop pick : Option Nat} : LineBlind (beginSession x drop pick) := by
  intro l s
  let begun : State := onTrigger x suppressed (s.onPcc x (fun p => { p with
    session := ⟨.waitZone, mountedTip s x, drop, pick, pick.bind (portHolding s), none, none⟩, consistent := true }))
  exact LineBlind.ite (c := fun _ => claimResult (claimOutcome s x 0) = .done)
    (f := fun u => enterStep x (applyClaim x 0 u)) (fun _ _ => Iff.rfl)
    (.comp (g := enterStep x) lineBlind_enterStep lineBlind_applyClaim) lineBlind_applyClaim l begun

end

end Sys2Proof.Proofs
end

section
/-! Every owner serves a request alike whatever stands on the line of P2, and no request moves a link. -/
namespace Sys2Proof.Proofs

open Sys2Proof.Machine Sys2Proof.Laws

section
variable {own own' : State → Served} {f : State → State} {v : Byte}

/-! ### Owners by their target and their checks -/

theorem ownerBlind_of_step {r : State → Reply} (hf : LineBlind f) (hr : ∀ l s, r (sentAs l s) = r s) :
    OwnerBlind (fun s => ⟨f s, r s⟩) := fun l s => by
  dsimp only
  rw [hf, hr]

theorem ownerBlind_served {r : State → Result} (hf : LineBlind f) (hr : ∀ l s, r (sentAs l s) = r s) :
    OwnerBlind (fun s => served (r s) (f s)) :=
  ownerBlind_of_step (r := fun s => ⟨r s, []⟩) hf (fun l s => by rw [hr])

theorem ownerBlind_refuse {r : Result} : OwnerBlind (refuse r) := fun _ _ => rfl

theorem ownerBlind_withArm {g : Arm → State → Served} (h : ∀ x, OwnerBlind (g x)) : OwnerBlind (withArm v g) := by
  intro l s
  unfold withArm
  cases armOf v with
  | none => rfl
  | some x => exact h x l s

theorem ownerBlind_withKind {g : TableKind → State → Served} (h : ∀ k, OwnerBlind (g k)) : OwnerBlind (withKind v g) := by
  intro l s
  unfold withKind
  cases kindOf v with
  | none => rfl
  | some k => exact h k l s

theorem ownerBlind_afterChecks {checks : State → List (Bool × Result)} (hc : ∀ l s, checks (sentAs l s) = checks s)
    (h : OwnerBlind own) : OwnerBlind (fun s => afterChecks (checks s) own s) := by
  intro l s
  dsimp only
  unfold afterChecks
  rw [hc]
  cases firstRefusal (checks s) with
  | some r => rfl
  | none => exact h l s

theorem OwnerBlind.ite {c : State → Prop} [∀ s, Decidable (c s)] (hc : ∀ l s, c (sentAs l s) ↔ c s) (h : OwnerBlind own)
    (h' : OwnerBlind own') : OwnerBlind (fun s => if c s then own s else own' s) := by
  intro l s
  dsimp only
  rw [if_congr (hc l s) (h l s) (h' l s)]
  split <;> rfl

end

/-! ### The 26 owners -/

section
variable {x : Arm} {z : Nat} {k : TableKind}

theorem ownerBlind_modeReply {r : Result} {f : State → State} (hf : LineBlind f) : OwnerBlind (fun s => modeReply r (f s)) := by
  intro l s
  dsimp only
  rw [hf]
  rfl

theorem ownerBlind_stationMode (w : Word) : OwnerBlind (ownStationMode w) :=
  .ite (c := fun _ => paramByte w = 2) (fun _ _ => Iff.rfl)
    (.ite (c := fun s => s.riu.station = .run) (fun _ _ => Iff.rfl) (ownerBlind_modeReply lineBlind_id)
      (.ite (c := fun s => ((activeBank .slotMap s).isNone || (activeBank .stationRecord s).isNone) = true) (fun _ _ => Iff.rfl)
        (ownerBlind_modeReply lineBlind_id) (ownerBlind_modeReply lineBlind_enterRun)))
    (.ite (c := fun _ => paramByte w = 1) (fun _ _ => Iff.rfl)
      (.ite (c := fun s => s.riu.station = .config) (fun _ _ => Iff.rfl) (ownerBlind_modeReply lineBlind_id)
        (.ite (c := fun s => (armLatched s .a || armLatched s .b || inStep (sessionOf s .a) || inStep (sessionOf s .b)) = true)
          (fun _ _ => Iff.rfl) (ownerBlind_modeReply lineBlind_id) (ownerBlind_modeReply lineBlind_enterConfig)))
      (ownerBlind_modeReply lineBlind_id))

theorem ownerBlind_statusRead (page selector part : Byte) : OwnerBlind (ownStatusRead page selector part) := by
  intro l s
  have hpage : statusPage (sentAs l s) page selector part = statusPage s page selector part := rfl
  unfold ownStatusRead
  rw [hpage]
  cases statusPage s page selector part <;> rfl

theorem ownerBlind_tableActivate (kind : Byte) : OwnerBlind (ownTableActivate kind) := by
  refine ownerBlind_withKind fun k => ownerBlind_afterChecks (fun _ _ => rfl) fun l s => ?_
  have htest : crossTest k (sentAs l s) = crossTest k s := rfl
  dsimp only
  rw [htest]
  cases crossTest k s with
  | some off => rfl
  | none =>
    dsimp only
    rw [lineBlind_activate]
    rfl

theorem ownerBlind_tableRead (kind bank : Byte) (offset : BitVec 16) : OwnerBlind (ownTableRead kind bank offset) := by
  refine ownerBlind_withKind fun k => .ite (c := fun _ => capacity k ≤ offset.toNat) (fun _ _ => Iff.rfl) ownerBlind_refuse
    (.ite (c := fun _ => bank = 0) (fun _ _ => Iff.rfl) (fun l s => ?_)
      (.ite (c := fun _ => bank = 1) (fun _ _ => Iff.rfl) (fun _ _ => rfl) ownerBlind_refuse))
  have hactive : ((sentAs l s).tbsOf k).active = (s.tbsOf k).active := rfl
  rw [hactive]
  cases (s.tbsOf k).active <;> rfl

theorem ownerBlind_portSet (port : Byte) (state tip : Word) : OwnerBlind (ownPortSet port state tip) := by
  refine ownerBlind_afterChecks (fun _ _ => rfl) ?_
  cases portTarget (paramByte state) (paramByte tip) with
  | none => exact ownerBlind_refuse
  | some v =>
    exact ownerBlind_served (r := fun _ => .done)
      (.comp (g := clearRack port.toNat) lineBlind_clearRack (.comp (g := setPort port.toNat v) (fun _ _ => rfl)
        (.comp (g := placeTip port.toNat v) lineBlind_placeTip lineBlind_evictTip))) (fun _ _ => rfl)

theorem ownerBlind_triggerDisarm (arm : Byte) : OwnerBlind (ownTriggerDisarm arm) := by
  refine ownerBlind_withArm fun x l s => ?_
  have htrigger : triggerOf (sentAs l s) x = triggerOf s x := rfl
  rw [htrigger]
  cases triggerOf s x <;> rfl

theorem ownerBlind_releaseBy : OwnerBlind (releaseBy x z) :=
  .ite (c := fun s => holds s x z = true) (fun _ _ => Iff.rfl) (ownerBlind_served lineBlind_askRelease (fun _ _ => rfl))
    (.ite (c := fun s => waitsOn s x z = true) (fun _ _ => Iff.rfl)
      (ownerBlind_served (r := fun _ => .done) lineBlind_withdrawWait (fun _ _ => rfl)) ownerBlind_refuse)

theorem ownerBlind_changeAbort (arm : Byte) : OwnerBlind (ownChangeAbort arm) := by
  refine ownerBlind_withArm fun x l s => ?_
  have hstate : (sessionOf (sentAs l s) x).state = (sessionOf s x).state := rfl
  have haborted := ownerBlind_served (r := fun _ => .done) (lineBlind_abortStep (x := x)) (fun _ _ => rfl) l s
  have hcancelled := ownerBlind_served (r := fun _ => .done) (f := fun s => post (.change x) (.aborted .waitZone) (cancelWaiting x s))
    (.comp (g := post (.change x) (.aborted .waitZone)) (fun _ _ => rfl) lineBlind_cancelWaiting) (fun _ _ => rfl) l s
  rw [hstate]
  cases (sessionOf s x).state with
  | idle => rfl
  | waitZone => exact hcancelled
  | _ => exact haborted

/-- No owner looks at the line of P2. -/
theorem Owner.lineBlind {c : RequestCode} {own : State → Served} (ho : Owner c own) : OwnerBlind own := by
  cases ho with
  | stationMode w => exact ownerBlind_stationMode w
  | stationReset => exact ownerBlind_served (r := fun _ => .done) lineBlind_warmReset (fun _ _ => rfl)
  | statusRead a b c => exact ownerBlind_statusRead a b c
  | tableWrite | tableClear | tableCheck =>
    exact ownerBlind_withKind fun k => ownerBlind_afterChecks (fun _ _ => rfl) (fun _ _ => rfl)
  | tableActivate k => exact ownerBlind_tableActivate k
  | tableRead k b o => exact ownerBlind_tableRead k b o
  | tipSet | tipRemove => exact ownerBlind_afterChecks (fun _ _ => rfl) (fun _ _ => rfl)
  | portSet p v t => exact ownerBlind_portSet p v t
  | armTipSet a t =>
    exact ownerBlind_withArm fun x => ownerBlind_afterChecks (fun _ _ => rfl) (ownerBlind_served (r := fun _ => .done)
      (.comp (g := emptyHistory x) lineBlind_emptyHistory (.comp (g := mount x _) lineBlind_mount lineBlind_dismount)) (fun _ _ => rfl))
  | triggerArm a => exact ownerBlind_withArm fun x => ownerBlind_afterChecks (fun _ _ => rfl) (fun _ _ => rfl)
  | triggerDisarm a => exact ownerBlind_triggerDisarm a
  | featureOpen a => exact ownerBlind_withArm fun x => ownerBlind_afterChecks (fun _ _ => rfl) (fun _ _ => rfl)
  | featureClose a =>
    exact ownerBlind_withArm fun x => .ite (c := fun s => (s.tcuOf x).bracketOpen = true) (fun _ _ => Iff.rfl)
      (.ite (c := fun s => armLatched s x = true) (fun _ _ => Iff.rfl) ownerBlind_refuse
        (ownerBlind_served (r := fun _ => .done) (.comp (g := takeDeferred x)
          (f := fun s => s.onTcu x (fun u => { u with bracketOpen := false })) lineBlind_takeDeferred (fun _ _ => rfl)) (fun _ _ => rfl)))
      (ownerBlind_served (r := fun _ => .done) lineBlind_id (fun _ _ => rfl))
  | workpieceSet | workpieceClear => exact ownerBlind_afterChecks (fun _ _ => rfl) (fun _ _ => rfl)
  | thermalAdvance a => exact ownerBlind_withArm fun x => ownerBlind_afterChecks (fun _ _ => rfl) (fun _ _ => rfl)
  | zoneClaim a z =>
    exact ownerBlind_withArm fun x => ownerBlind_afterChecks (fun _ _ => rfl)
      (ownerBlind_served lineBlind_applyClaim (fun _ _ => rfl))
  | zoneRelease a z => exact ownerBlind_withArm fun x => ownerBlind_afterChecks (fun _ _ => rfl) ownerBlind_releaseBy
  | holdRelease a r => exact ownerBlind_withArm fun x => ownerBlind_afterChecks (fun _ _ => rfl) (fun _ _ => rfl)
  | changeBegin a d p =>
    exact ownerBlind_withArm fun x => ownerBlind_afterChecks (fun _ _ => rfl)
      (ownerBlind_served (r := fun _ => .accepted) lineBlind_beginSession (fun _ _ => rfl))
  | changeAbort a => exact ownerBlind_changeAbort a
  | eventPriority | reportLevel => exact ownerBlind_afterChecks (fun _ _ => rfl) (fun _ _ => rfl)

end

/-! ### The request slot -/

section
variable {c : RequestCode} {own : State → Served} {r : RequestSlot}

theorem lineBlind_serve (h : OwnerBlind own) : LineBlind (serve c own) := by
  refine .ite (c := fun s => s.riu.inReset = true ∨ s.riu.station = .unaddressed) (fun _ _ => Iff.rfl) lineBlind_id
    (.ite (c := fun s => s.riu.station = .config ∧ refusedInConfig c = true) (fun _ _ => Iff.rfl) (fun _ _ => rfl) fun l s => ?_)
  rw [h l s]
  rfl

theorem lineBlind_keepOffset (t : Nat) : LineBlind (keepOffset t) := fun _ _ => rfl

/-- A request is taken alike whatever stands on the line of P2. -/
theorem lineBlind_takeRequest : LineBlind (takeRequest r) := by
  intro l s
  have haddress : (sentAs l s).riu.address = s.riu.address := rfl
  unfold takeRequest
  rw [haddress]
  split_ifs
  · rfl
  · rfl
  · cases requestOf r.code with
    | none => rfl
    | some c =>
      refine lineBlind_serve (ownerOf_owner c r).lineBlind l (if c = .tipSet then keepOffset r.target.toNat s else s) |> (Eq.trans ?_)
      exact congrArg (serve c (ownerOf c r)) (LineBlind.ite (c := fun _ => c = .tipSet) (fun _ _ => Iff.rfl)
        (lineBlind_keepOffset r.target.toNat) lineBlind_id l s)

/-! ### The links -/

theorem p2Up_withKind {k : Byte} {g : TableKind → State → Served} {s : State}
    (h : ∀ k, (g k s).state.riu.p2Up = s.riu.p2Up) : (withKind k g s).state.riu.p2Up = s.riu.p2Up :=
  withKind_keeps (Q := fun u => u.riu.p2Up = s.riu.p2Up) rfl h

theorem riu_enterRun (s : State) : (enterRun s).riu = { s.riu with station := .run } := by
  have htouches : Touches [.thu] { s with riu := { s.riu with station := .run } } (enterRun s) := by simp [enterRun]
  exact htouches.riu (by decide)

theorem riu_enterConfig (s : State) : (enterConfig s).riu = { s.riu with station := .config } := by
  have htouches : Touches [.thu, .tcu, .pcc, .mgd] { s with riu := { s.riu with station := .config } } (enterConfig s) := by
    simp [enterConfig]
  exact htouches.riu (by decide)

theorem p2Up_warmReset (s : State) : (warmReset s).riu.p2Up = s.riu.p2Up := by
  have htouches : Touches [.pcc] s (interruptSession .b (interruptSession .a s)) := by simp
  exact (congrArg Riu.p2Up (htouches.riu (by decide)) : (interruptSession .b (interruptSession .a s)).riu.p2Up = _)

theorem p2Up_activate (k : TableKind) (s : State) : (activate k s).riu.p2Up = s.riu.p2Up := by
  change (activationEffect k (s.onTbs k swapBanks)).riu.p2Up = s.riu.p2Up
  cases k with
  | armMap x =>
    have htouches : Touches [.cen, .tcu, .tbs] s (activationEffect (.armMap x) (s.onTbs (.armMap x) swapBanks)) := by
      simp [activationEffect]
    exact congrArg Riu.p2Up (htouches.riu (by decide))
  | stationRecord =>
    unfold activationEffect
    dsimp only
    split <;> rfl
  | _ => rfl

/-- No owner moves the link of P2. -/
theorem Owner.p2Up (ho : Owner c own) (s : State) : (own s).state.riu.p2Up = s.riu.p2Up := by
  have hother (hriu : Block.riu ∉ ownBlocks c) : (own s).state.riu.p2Up = s.riu.p2Up :=
    congrArg Riu.p2Up ((ho.touches_ownBlocks s).riu hriu)
  cases ho with
  | stationMode w =>
    unfold ownStationMode
    split_ifs
    · rfl
    · rfl
    · exact (congrArg Riu.p2Up (riu_enterRun s)).trans rfl
    · rfl
    · rfl
    · exact (congrArg Riu.p2Up (riu_enterConfig s)).trans rfl
    · rfl
  | stationReset => exact p2Up_warmReset s
  | tableActivate k =>
    refine p2Up_withKind fun k => afterChecks_keeps (Q := fun u => u.riu.p2Up = s.riu.p2Up) rfl fun _ => ?_
    dsimp only
    split
    · rfl
    · exact p2Up_activate k s
  | _ => exact hother (by decide)

theorem p2Up_takeRequest (r : RequestSlot) (s : State) : (takeRequest r s).riu.p2Up = s.riu.p2Up := by
  unfold takeRequest
  split_ifs
  · rfl
  · rfl
  · cases requestOf r.code with
    | none => rfl
    | some c =>
      have hserve (u : State) : (serve c (ownerOf c r) u).riu.p2Up = u.riu.p2Up := by
        unfold serve
        split_ifs
        · rfl
        · rfl
        · exact (ownerOf_owner c r).p2Up u
      refine (hserve _).trans ?_
      split <;> rfl

end

end Sys2Proof.Proofs
end

section
/-! OUTBOUND_PASS (O57): the pass as a whole, and what it leaves. -/
namespace Sys2Proof.Proofs

open Sys2Proof.Machine Sys2Proof.Laws

section
variable {s : State} {f : RingFrame} {elapsed : Nat} {c : PassChoices} {out : OutboundChoices}

/-- The exchange that a request slot opens, and the request that waits of it. -/
def openedBy (r : RequestSlot) : Rqu := ⟨⟨r.tag, r.code, none, []⟩, if r.code = 0 then none else some r⟩

/-- An outbound pass with the parts it has taken. -/
def outboundWork (out : OutboundChoices) (f : RingFrame) (s : State) : OutWork :=
  runOutbound out (arrivedRequest out.marksFirst f s) (afterTicks f (openedBy (arrivedRequest out.marksFirst f s)) s)

/-- The outbound pass in CONFIG and RUN, at a block with nothing due. -/
theorem exec_outbound (h : Settled elapsed s) (hservice : InService s) (hup : s.riu.p1Up = true) (hcycle : isCycleFrame f = true) :
    exec (.cycleFrameOutbound elapsed f out c) s = .next (forwardCycle
      (stampFrame (windowOffset s) (outboundWork out f s).guard
        (if out.marksFirst then activeBank .slotMap s else activeBank .slotMap (outboundWork out f s).state) f) c
      (outboundWork out f s).state) := by
  have hbegin (r : RequestSlot) : beginOutbound f r (realign f { s with riu := laterRiu elapsed s }) = afterTicks f (openedBy r) s := by
    rw [← arriveP1_settled h]
    exact beginOutbound_eq h
  have hstation : (realign f { s with riu := laterRiu elapsed s }).riu.station ≠ .unaddressed := hservice.2
  change execCycleFrameOutbound elapsed f out c s = _
  rw [execCycleFrameOutbound, portOpen_p1 h.1 hup, hcycle, Bool.and_self, if_pos rfl, arriveP1_settled h, outboundPass]
  rw [if_neg hstation, stationOutbound, hbegin]
  rfl

theorem runOutbound_default (late : Bool) (r : RequestSlot) (u : State) :
    (runOutbound ⟨false, late, []⟩ r u).state = (if late && mayFollowPass r then u else takeAwaiting u)
      ∧ (runOutbound ⟨false, late, []⟩ r u).guard = guardWord (if late && mayFollowPass r then u else takeAwaiting u) := by
  unfold runOutbound
  dsimp only
  cases late && mayFollowPass r <;> exact ⟨rfl, rfl⟩

/-- The block that sends an outbound frame on, the parts in the default order. -/
def outboundEnd (late : Bool) (f : RingFrame) (s : State) : State :=
  if late && mayFollowPass (readRequest f.payload (windowOffset s)) then
    afterTicks f (openedBy (readRequest f.payload (windowOffset s))) s
  else takeRequest (readRequest f.payload (windowOffset s))
    (afterTicks f ⟨⟨(readRequest f.payload (windowOffset s)).tag, (readRequest f.payload (windowOffset s)).code, none, []⟩, none⟩ s)

theorem outboundWork_default (late : Bool) : (outboundWork ⟨false, late, []⟩ f s).state = outboundEnd late f s
    ∧ (outboundWork ⟨false, late, []⟩ f s).guard = guardWord (outboundEnd late f s) := by
  have hend : (if late && mayFollowPass (readRequest f.payload (windowOffset s)) then
      afterTicks f (openedBy (readRequest f.payload (windowOffset s))) s
      else takeAwaiting (afterTicks f (openedBy (readRequest f.payload (windowOffset s))) s)) = outboundEnd late f s := by
    rw [outboundEnd, takeAwaiting_afterTicks (q := openedBy (readRequest f.payload (windowOffset s))) rfl]
  rw [← hend]
  exact runOutbound_default late (readRequest f.payload (windowOffset s)) _

/-- The frame that leaves at P2, the parts in the default order. -/
def outboundFrame (late : Bool) (f : RingFrame) (s : State) : RingFrame :=
  stampFrame (windowOffset s) (guardWord (outboundEnd late f s)) (activeBank .slotMap (outboundEnd late f s)) f

theorem p2Up_outboundEnd (late : Bool) : (outboundEnd late f s).riu.p2Up = s.riu.p2Up := by
  unfold outboundEnd
  split
  · rfl
  · exact p2Up_takeRequest _ _

theorem exec_outbound_p2 (late : Bool) (h : Settled elapsed s) (hservice : InService s) (hup : s.riu.p1Up = true)
    (hup2 : s.riu.p2Up = true) (hcycle : isCycleFrame f = true) :
    exec (.cycleFrameOutbound elapsed f ⟨false, late, []⟩ c) s = .next { outboundEnd late f s with
      riu := { (outboundEnd late f s).riu with sent2 := some ⟨outboundFrame late f s, true⟩ } } := by
  rw [exec_outbound h hservice hup hcycle, (outboundWork_default late).1, (outboundWork_default late).2, forwardCycle,
    if_pos ((p2Up_outboundEnd late).trans hup2)]
  rfl

/-! ### What the countdowns leave -/

/-- The blocks once the countdowns have moved. -/
def Ticked (s t : State) : Prop :=
  (∀ x, t.tcuOf x = { s.tcuOf x with trigger := match triggerOf s x with
        | .rearm n => .rearm (n - 1)
        | other => other })
  ∧ (∀ x, t.thuOf x = { s.thuOf x with countdown :=
        if s.riu.station = .run then (s.thuOf x).countdown.map (fun n => n - 1) else (s.thuOf x).countdown })
  ∧ (∀ x, t.pccOf x = { s.pccOf x with
      session := if inStep (sessionOf s x) then { sessionOf s x with timer := (sessionOf s x).timer.map (· - 1) }
        else sessionOf s x })
  ∧ (∀ k, t.tbsOf k = { s.tbsOf k with state := match (s.tbsOf k).state with
        | .checking e left _ => .checking e left false
        | other => other })
  ∧ t.cen = s.cen ∧ t.mgd = s.mgd ∧ t.thu = { s.thu with arm := t.thu.arm } ∧ t.tcu = { s.tcu with arm := t.tcu.arm }
  ∧ t.pcc = { s.pcc with arm := t.pcc.arm } ∧ t.pending = s.pending

theorem ticked_afterTicks (q : Rqu) : Ticked s (afterTicks f q s) := by
  refine ⟨fun x => ?_, fun x => ?_, fun x => ?_, fun k => ?_, rfl, rfl, rfl, rfl, rfl, rfl⟩
  · refine (get_both s.tcu.arm x tickedTcu).trans ?_
    change tickedTcu (s.tcuOf x) = _
    unfold tickedTcu triggerOf
    cases (s.tcuOf x).trigger <;> rfl
  · change (if s.riu.station = .run then s.thu.arm.both tickedThu else s.thu.arm).get x = _
    split
    · exact get_both s.thu.arm x tickedThu
    · rfl
  · exact get_both s.pcc.arm x tickedPcc
  · refine (get_kind_all s.tbs k unfresh).trans ?_
    change unfresh (s.tbsOf k) = _
    unfold unfresh
    cases h : (s.tbsOf k).state <;> simp only [← h]

theorem activeBank_afterTicks (k : TableKind) (q : Rqu) : activeBank k (afterTicks f q s) = activeBank k s := by
  change ((s.tbs.all unfresh).get k).active = _
  rw [get_kind_all]
  unfold unfresh
  split <;> rfl

theorem reportLevel_afterTicks (q : Rqu) : (afterTicks f q s).evu.reportLevel = s.evu.reportLevel := by
  change (if s.riu.ringLoss then (post .ring .ringRestored s).evu else s.evu).reportLevel = _
  split <;> rfl

/-- The bytes of the frame sent on. -/
def StampedBytes (f g : RingFrame) (s : State) : Prop :=
  ∀ a, Memory.read g.payload a =
    if a ∈ (((activeBank .slotMap s).map slotEntries).getD []).map (·.2) then 0
    else if a = windowOffset s + 32 then
      (if (s.mgdOf .a).causes ≠ 0 then 1 else 0) + (if (s.mgdOf .a).creep ≠ 0 then 2 else 0)
        + (if (s.mgdOf .b).causes ≠ 0 then 4 else 0) + (if (s.mgdOf .b).creep ≠ 0 then 8 else 0)
    else if windowOffset s + 32 < a ∧ a < windowOffset s + 36 then 0 else Memory.read f.payload a

theorem outboundFrame_eq (late : Bool) (hwf : Memory.wf f.payload = true) :
    outboundFrame late f s = { f with payload := (outboundFrame late f s).payload } := by
  obtain ⟨m, hm, -⟩ := stampFrame_eq (window := windowOffset s) (guard := guardWord (outboundEnd late f s))
    (activeBank .slotMap (outboundEnd late f s)) hwf
  rw [outboundFrame, hm]

theorem stampedBytes_outboundFrame (late : Bool) (hwf : Memory.wf f.payload = true) (hmgd : (outboundEnd late f s).mgd = s.mgd)
    (hslots : activeBank .slotMap (outboundEnd late f s) = activeBank .slotMap s) : StampedBytes f (outboundFrame late f s) s := by
  have hguard : guardWord (outboundEnd late f s) = guardWord s := by
    unfold guardWord State.mgdOf
    rw [hmgd]
  obtain ⟨m, hm, -, hread⟩ := stampFrame_eq (window := windowOffset s) (guard := guardWord s) (activeBank .slotMap s) hwf
  intro a
  rw [outboundFrame, hguard, hslots, hm]
  refine (hread a).trans (if_congr Iff.rfl rfl ?_)
  rw [leBytes_guardWord]
  exact read_byteWord hwf

/-- The pass with a request that changes at most the exchange and the report level. -/
theorem outbound_leaves {late : Bool} {q : Rqu} {level : Nat} (h : Settled elapsed s) (hservice : InService s)
    (hup : s.riu.p1Up = true) (hup2 : s.riu.p2Up = true) (hcycle : isCycleFrame f = true) (hwf : Memory.wf f.payload = true)
    (hend : outboundEnd late f s = { afterTicks f q s with evu := { (afterTicks f q s).evu with reportLevel := level } }) :
    ∃ t g, exec (.cycleFrameOutbound elapsed f ⟨false, late, []⟩ c) s = .next t
      ∧ t.riu = { outboundRiu f s with sent2 := some ⟨g, true⟩ } ∧ t.rqu = q
      ∧ t.evu = { (afterTicks f q s).evu with reportLevel := level } ∧ Ticked s t
      ∧ g = { f with payload := g.payload } ∧ StampedBytes f g s := by
  refine ⟨_, outboundFrame late f s, exec_outbound_p2 late h hservice hup hup2 hcycle, ?_, ?_, ?_, ?_,
    outboundFrame_eq late hwf, stampedBytes_outboundFrame late hwf ?_ ?_⟩
  · rw [hend]
    rfl
  · rw [hend]
    rfl
  · rw [hend]
  · rw [hend]
    exact ticked_afterTicks (f := f) q
  · rw [hend]
    rfl
  · rw [hend]
    exact activeBank_afterTicks (f := f) .slotMap q

theorem level_afterTicks (q : Rqu) : { afterTicks f q s with evu := { (afterTicks f q s).evu with
    reportLevel := s.evu.reportLevel } } = afterTicks f q s := by
  rw [← reportLevel_afterTicks (f := f) q]

end

end Sys2Proof.Proofs
end

section
/-! OUTBOUND_PASS (O57): the requests it takes, the world's choices, and the statement. -/
namespace Sys2Proof.Proofs

open Sys2Proof.Machine Sys2Proof.Laws

section
variable {s : State} {f : RingFrame} {elapsed : Nat} {c : PassChoices} {out : OutboundChoices}

/-! ### A request served on the pass -/

/-- A request that leaves the RIU alone leaves it as it was. -/
theorem riu_serve {q : RequestCode} {own : State → Served} (ho : Owner q own) (hriu : Block.riu ∉ ownBlocks q) :
    (serve q own s).riu = s.riu := by
  unfold serve
  split_ifs
  · rfl
  · rfl
  · exact (ho.touches_ownBlocks s).riu hriu

/-- REPORT_LEVEL with a level out of range. -/
theorem takeRequest_reportLevel_bad {r : RequestSlot} (hservice : InService s) (hmine : s.riu.address = some r.address)
    (hcode : r.code = 0x51) (hlevel : 7 < paramByte r.params.w0) :
    takeRequest r s = withReply 0x51 ⟨.badParam, []⟩ s := by
  have hown : ownReportLevel r.params.w0 s = ⟨s, ⟨.badParam, []⟩⟩ := by
    simp [ownReportLevel, afterChecks, firstRefusal, hlevel, refuse]
  rw [takeRequest_code (c := .reportLevel) hmine hcode, serveSlot, if_neg (by decide), ownerOf, serve_inService hservice rfl, hown]
  rfl

/-- REPORT_LEVEL with a level in range. -/
theorem takeRequest_reportLevel {r : RequestSlot} (hservice : InService s) (hmine : s.riu.address = some r.address)
    (hcode : r.code = 0x51) (hlevel : paramByte r.params.w0 ≤ 7) :
    takeRequest r s = withReply 0x51 ⟨.done, [word s.evu.reportLevel, word (paramByte r.params.w0)]⟩
      { s with evu := { s.evu with reportLevel := paramByte r.params.w0 } } := by
  have hown : ownReportLevel r.params.w0 s = ⟨{ s with evu := { s.evu with reportLevel := paramByte r.params.w0 } },
      ⟨.done, [word s.evu.reportLevel, word (paramByte r.params.w0)]⟩⟩ := by
    simp [ownReportLevel, afterChecks, firstRefusal, Nat.not_lt.mpr hlevel]
  rw [takeRequest_code (c := .reportLevel) hmine hcode, serveSlot, if_neg (by decide), ownerOf, serve_inService hservice rfl, hown]
  rfl

/-- A TIP_SET keeps, with the frame in flight, the offsets of the tip it names. -/
theorem riu_takeRequest_tipSet {r : RequestSlot} (hmine : s.riu.address = some r.address) (hcode : r.code = 0x20) :
    (takeRequest r s).riu = (keepOffset r.target.toNat s).riu := by
  rw [takeRequest_code (c := .tipSet) hmine hcode, serveSlot, if_pos rfl]
  exact riu_serve (ownerOf_owner .tipSet r) (by decide)

/-- The low byte of a word of a payload. -/
theorem paramByte_payloadWord (p : Memory 8) (o : Nat) : paramByte (payloadWord p o) = (Memory.read p o).toNat := by
  have hbyte := (Memory.read p o).isLt
  simp only [paramByte, payloadWord, BitVec.toNat_ofNat, Memory.readLE]
  omega

/-! ### Whatever the world's choices, for an empty slot -/

/-- The slots of a SLOT MAP that keeps its rules stand at multiples of 4. -/
theorem markPlaces_mod {a : Nat} (h : BanksSound s) (ha : a ∈ markPlaces (activeBank .slotMap s)) : a % 4 = 0 := by
  cases hbank : activeBank .slotMap s with
  | none => simp [markPlaces, hbank] at ha
  | some b =>
    simp only [markPlaces, hbank, Option.map_some, Option.getD_some, slotEntries, List.mem_map, List.mem_filterMap,
      List.mem_range, Option.map_eq_some_iff] at ha
    obtain ⟨-, ⟨e, he, n, hname, rfl⟩, rfl⟩ := ha
    have hused : rawSlot b e ∈ usedSlots b := by
      refine List.mem_filter.mpr ⟨List.mem_map.mpr ⟨e, List.mem_range.mpr he, rfl⟩, ?_⟩
      rw [decide_eq_true_eq]
      rintro hkind
      rw [show wordNat b (3 * e) = 0 from hkind] at hname
      simp [slotNameOf] at hname
    have hkeeps := List.all_eq_true.mp ((h .slotMap).1 b hbank)
    have hrule := hkeeps ⟨3 * e + 2, decide (wordNat b (3 * e + 2) % 4 = 0)
      && decide (wordNat b (3 * e + 2) + slotLength (wordNat b (3 * e)) ≤ Config.payloadLength)⟩ (by
        refine List.mem_flatMap.mpr ⟨rawSlot b e, hused, List.mem_append_left _ (List.mem_append_left _ ?_)⟩
        exact List.mem_cons_of_mem _ (List.mem_cons_of_mem _ (List.mem_singleton.mpr rfl)))
    simp only [Bool.and_eq_true, decide_eq_true_eq] at hrule
    exact hrule.1

/-- The window of a STATION RECORD that keeps its rules stands at a multiple of 4. -/
theorem windowOffset_mod (h : BanksSound s) : windowOffset s % 4 = 0 := by
  unfold windowOffset activeField stationRecord
  cases hbank : activeBank .stationRecord s with
  | none => rfl
  | some b =>
    have hrule := List.all_eq_true.mp ((h .stationRecord).1 b hbank)
      ⟨0, decide (wordNat b 0 % 4 = 0) && decide (wordNat b 0 ≤ 1216)⟩ (by simp [rulesAgainst, stationRules])
    simp only [Bool.and_eq_true, decide_eq_true_eq] at hrule
    exact hrule.1

/-- An empty slot reads empty, with its tag, before or after the marks are cleared. -/
theorem arrivedRequest_empty (marksFirst : Bool) (h : BanksSound s) (hwf : Memory.wf f.payload = true)
    (hcode : Memory.read f.payload (windowOffset s + 1) = 0) :
    (arrivedRequest marksFirst f s).code = 0
      ∧ (arrivedRequest marksFirst f s).tag = BitVec.ofNat 16 (Memory.readLE f.payload (windowOffset s + 2) 2) := by
  cases marksFirst with
  | false => exact ⟨hcode, rfl⟩
  | true =>
    obtain ⟨m, hm, -, hread⟩ := clearMarks_eq (activeBank .slotMap s) hwf
    have hrequest : arrivedRequest true f s = readRequest m (windowOffset s) := by
      rw [arrivedRequest, if_pos rfl, hm]
    have hmod := windowOffset_mod h
    have hkept {a : Nat} (ha : a % 4 ≠ 0) : Memory.read m a = Memory.read f.payload a := by
      rw [hread, if_neg (fun hmem => ha (markPlaces_mod h hmem))]
    rw [hrequest]
    refine ⟨(hkept (by omega)).trans hcode, congrArg (BitVec.ofNat 16) ?_⟩
    simp only [Memory.readLE, hkept (a := windowOffset s + 2) (by omega), hkept (a := windowOffset s + 2 + 1) (by omega)]

/-- The parts of the pass for an empty slot, in any order. -/
theorem inPass_outboundWork {q : Rqu} (h : Settled elapsed s) (hq : openedBy (arrivedRequest out.marksFirst f s) = q)
    (hidle : q.awaiting = none) : InPass 0 (afterTicks f q s) (outboundWork out f s).state := by
  rw [outboundWork, hq]
  exact InPass.runOutbound out _ hidle (.inl h.2.1.2.2.1)

/-- An empty slot: what the pass leaves whatever the world's choices. -/
theorem outbound_empty (h : Settled elapsed s) (hservice : InService s) (hsound : BanksSound s) (hup : s.riu.p1Up = true)
    (hup2 : s.riu.p2Up = true) (hcycle : isCycleFrame f = true) (hwf : Memory.wf f.payload = true)
    (hcode : Memory.read f.payload (windowOffset s + 1) = 0) :
    ∃ t g, exec (.cycleFrameOutbound elapsed f out c) s = .next t
      ∧ t.riu = { outboundRiu f s with sent2 := some ⟨g, true⟩ }
      ∧ t.rqu = ⟨⟨BitVec.ofNat 16 (Memory.readLE f.payload (windowOffset s + 2) 2), 0, none, []⟩, none⟩ ∧ t.pending = s.pending
      ∧ g = { f with payload := g.payload }
      ∧ ∀ a, (a < windowOffset s + 32 ∨ windowOffset s + 36 ≤ a) → a ∉ markPlaces (activeBank .slotMap s) →
          Memory.read g.payload a = Memory.read f.payload a := by
  obtain ⟨hnone, htag⟩ := arrivedRequest_empty out.marksFirst hsound hwf hcode
  have hq : openedBy (arrivedRequest out.marksFirst f s)
      = ⟨⟨BitVec.ofNat 16 (Memory.readLE f.payload (windowOffset s + 2) 2), 0, none, []⟩, none⟩ := by
    rw [openedBy, htag, hnone, if_pos rfl]
  have hparts := inPass_outboundWork h hq rfl
  have hsent : (outboundWork out f s).state.riu.sent1 = none := by
    generalize hl : (outboundWork out f s).state.riu.sent1 = l
    have hline : LineRewritten (0 + 36) (0 + 240) none l := hl ▸ hparts.line
    cases hline with
    | none => rfl
  have hriu : (outboundWork out f s).state.riu = outboundRiu f s := hparts.riu.trans (by rw [hsent]; rfl)
  have hslots : (if out.marksFirst then activeBank .slotMap s else activeBank .slotMap (outboundWork out f s).state)
      = activeBank .slotMap s := by
    rw [hparts.active, activeBank_afterTicks, ite_self]
  obtain ⟨m, hm, -, hread⟩ := stampFrame_eq (f := f) (window := windowOffset s) (guard := (outboundWork out f s).guard)
    (activeBank .slotMap s) hwf
  refine ⟨{ (outboundWork out f s).state with riu := { (outboundWork out f s).state.riu with
    sent2 := some ⟨{ f with payload := m }, true⟩ } }, { f with payload := m }, ?_, ?_, hparts.rqu, hparts.pending, rfl,
    fun a ha hmark => ?_⟩
  · have hlink : (outboundWork out f s).state.riu.p2Up = true := by
      rw [hriu]
      exact hup2
    rw [exec_outbound h hservice hup hcycle, hslots, hm, forwardCycle, if_pos hlink]
    rfl
  · rw [hriu]
  · refine (hread a).trans ?_
    rw [if_neg hmark]
    exact read_guard_other ha

end

/-! ### O57 -/

/-- Settles O57: the block as the countdowns leave it, the row that the slot's code names, and the frame stamped; the request
slot's line is not read by any row, so that the block before the request may be given with the line as it was. -/
theorem outboundPass : Obligations.OutboundPass := by
  unfold Obligations.OutboundPass
  refine ⟨fun s elapsed f c hsettled hservice hup hup2 hcycle hwf => ?pass, fun s r => ?row, rfl, rfl⟩
  case pass =>
    dsimp only
    have hleaves {late : Bool} {q : Rqu} {level : Nat} (hend : outboundEnd late f s
        = { afterTicks f q s with evu := { (afterTicks f q s).evu with reportLevel := level } }) :=
      outbound_leaves (c := c) hsettled hservice hup hup2 hcycle hwf hend
    have hunchanged {late : Bool} {q : Rqu} (hend : outboundEnd late f s = afterTicks f q s) :=
      hleaves (hend.trans (level_afterTicks q).symm)
    have hearly {u : State} (htake : takeRequest (readRequest f.payload (windowOffset s))
        (afterTicks f ⟨⟨BitVec.ofNat 16 (Memory.readLE f.payload (windowOffset s + 2) 2),
          Memory.read f.payload (windowOffset s + 1), none, []⟩, none⟩ s) = u) : outboundEnd false f s = u := htake
    refine ⟨rfl, ?counted, fun hcode => ?empty, fun hcode hmay => ?late, fun hcode hsound out => ?choices,
      fun hcode hother => ?wrongStation, fun hcode hmine hunknown => ?unknownCode, fun hmine hcode hlevel => ?levelBad,
      fun hmine hcode hlevel => ?level, fun hmine hcode => ?tipSet⟩
    case counted =>
      let q : Rqu := ⟨⟨BitVec.ofNat 16 (Memory.readLE f.payload (windowOffset s + 2) 2),
        Memory.read f.payload (windowOffset s + 1), none, []⟩, none⟩
      refine ⟨sentAs s.riu.sent2 (afterTicks f q s), outboundFrame false f s,
        ⟨rfl, rfl, rfl, ticked_afterTicks (f := f) q⟩, outboundFrame_eq false hwf, ?_⟩
      rw [lineBlind_takeRequest, exec_outbound_p2 false hsettled hservice hup hup2 hcycle]
      rfl
    case empty => exact hunchanged (hearly (takeRequest_none hcode))
    case late =>
      have hopened : openedBy (readRequest f.payload (windowOffset s)) = ⟨⟨BitVec.ofNat 16 (Memory.readLE f.payload
          (windowOffset s + 2) 2), Memory.read f.payload (windowOffset s + 1), none, []⟩,
          some (readRequest f.payload (windowOffset s))⟩ :=
        congrArg (Rqu.mk _) (if_neg hcode)
      refine hunchanged ?_
      rw [outboundEnd, hmay, Bool.and_self, if_pos rfl, hopened]
      rfl
    case choices =>
      rw [hcode]
      exact outbound_empty hsettled hservice hsound hup hup2 hcycle hwf hcode
    case wrongStation => exact hunchanged (hearly (takeRequest_wrongStation hcode hother))
    case unknownCode => exact hunchanged (hearly (takeRequest_unknownCode hcode hmine hunknown))
    case levelBad =>
      have hparam : 7 < paramByte (payloadWord f.payload (windowOffset s + 8)) := by rwa [paramByte_payloadWord]
      rw [hcode] at hearly ⊢
      exact hunchanged (hearly (takeRequest_reportLevel_bad hservice hmine hcode hparam))
    case level =>
      have hparam : paramByte (payloadWord f.payload (windowOffset s + 8)) ≤ 7 := by rwa [paramByte_payloadWord]
      rw [hcode] at hearly ⊢
      refine hleaves ((hearly (takeRequest_reportLevel hservice hmine hcode hparam)).trans ?_)
      rw [reportLevel_afterTicks]
      have hbyte : paramByte (readRequest f.payload (windowOffset s)).params.w0 = _ := paramByte_payloadWord f.payload (windowOffset s + 8)
      rw [hbyte]
      rfl
    case tipSet =>
      refine ⟨_, outboundFrame false f s, exec_outbound_p2 false hsettled hservice hup hup2 hcycle, ?_⟩
      have hriu : (outboundEnd false f s).riu = _ := riu_takeRequest_tipSet hmine hcode
      rw [hriu]
      rfl
  case row =>
    dsimp only
    refine ⟨takeRequest_none, takeRequest_wrongStation, takeRequest_unknownCode, fun hmine => ?_⟩
    have row (c : RequestCode) {i : Instr} (hc : c ≠ .tipSet) (hi : exec i s = .next (serve c (ownerOf c r) s))
        (hcode : r.code = requestByte c) : exec i s = .next (takeRequest r s) := exec_row hmine hc hi hcode
    exact ⟨row .stationMode (by decide) rfl, row .stationReset (by decide) rfl, row .statusRead (by decide) rfl,
      row .tableWrite (by decide) rfl, row .tableClear (by decide) rfl, row .tableCheck (by decide) rfl,
      row .tableActivate (by decide) rfl, row .tableRead (by decide) rfl, exec_tipSet_row hmine,
      row .tipRemove (by decide) rfl, row .portSet (by decide) rfl, row .armTipSet (by decide) rfl,
      row .triggerArm (by decide) rfl, row .triggerDisarm (by decide) rfl, row .featureOpen (by decide) rfl,
      row .featureClose (by decide) rfl, row .workpieceSet (by decide) rfl, row .workpieceClear (by decide) rfl,
      row .thermalAdvance (by decide) rfl, row .zoneClaim (by decide) rfl, row .zoneRelease (by decide) rfl,
      row .holdRelease (by decide) rfl, row .changeBegin (by decide) rfl, row .changeAbort (by decide) rfl,
      row .eventPriority (by decide) rfl, row .reportLevel (by decide) rfl⟩

end Sys2Proof.Proofs
end

section
/-! What a pass without readings leaves standing: each hold cause and each reader condition that stands, the map in force, the
occupancy, the head readings and the channels. -/
namespace Sys2Proof.Proofs

open Sys2Proof.Machine Sys2Proof.Laws

/-- No cause and no reader condition falls, and nothing read from a slot changes. -/
structure Steady (s t : State) : Prop where
  causes    : ∀ x c, hasCause (s.mgdOf x).causes c = true → hasCause (t.mgdOf x).causes c = true
  reader    : ∀ x, (s.cenOf x).reader = true → (t.cenOf x).reader = true
  inForce   : ∀ x, (t.cenOf x).inForce = (s.cenOf x).inForce
  head      : ∀ x, (t.pccOf x).headLast = (s.pccOf x).headLast ∧ (t.pccOf x).codeLast = (s.pccOf x).codeLast
  occupancy : t.pcc.occupancy = s.pcc.occupancy
  channels  : s.thu.restart = false → t.thu.restart = false ∧ t.thu.channels = s.thu.channels

theorem Steady.refl (s : State) : Steady s s := ⟨fun _ _ => id, fun _ => id, fun _ => rfl, fun _ => ⟨rfl, rfl⟩, rfl, fun h => ⟨h, rfl⟩⟩

theorem Steady.trans {s t u : State} (h : Steady s t) (h' : Steady t u) : Steady s u where
  causes x c hc := h'.causes x c (h.causes x c hc)
  reader x hr := h'.reader x (h.reader x hr)
  inForce x := (h'.inForce x).trans (h.inForce x)
  head x := ⟨(h'.head x).1.trans (h.head x).1, (h'.head x).2.trans (h.head x).2⟩
  occupancy := h'.occupancy.trans h.occupancy
  channels hr := ⟨(h'.channels (h.channels hr).1).1, (h'.channels (h.channels hr).1).2.trans (h.channels hr).2⟩

/-- The last step first, as the state is written. -/
theorem Steady.after {s t u : State} (h' : Steady t u) (h : Steady s t) : Steady s u := h.trans h'

section
variable {s t : State} {x y : Arm}

/-! ### Changes of the state -/

/-- A change of other blocks. -/
theorem Steady.of_touches (h : Touches [.riu, .rqu, .tbs, .tcu, .evu] s t) : Steady s t := by
  refine ⟨fun x c => ?_, fun x => ?_, fun x => ?_, fun x => ?_, ?_, ?_⟩
  · rw [State.mgdOf, State.mgdOf, h.mgd (by decide)]
    exact id
  · rw [State.cenOf, State.cenOf, h.cen (by decide)]
    exact id
  · rw [State.cenOf, State.cenOf, h.cen (by decide)]
  · rw [State.pccOf, State.pccOf, h.pcc (by decide)]
    exact ⟨rfl, rfl⟩
  · rw [h.pcc (by decide)]
  · rw [h.thu (by decide)]
    exact fun h => ⟨h, rfl⟩

theorem Steady.onCen {f : CenArm → CenArm} (hr : ∀ c, c.reader = true → (f c).reader = true) (hf : ∀ c, (f c).inForce = c.inForce) :
    Steady s (s.onCen x f) where
  causes _ _ := id
  reader y h := by
    by_cases hy : y = x
    · subst hy
      rw [onCen_cenOf]
      exact hr _ h
    · rwa [onCen_cenOf_other s f hy]
  inForce y := by
    by_cases hy : y = x
    · subst hy
      rw [onCen_cenOf]
      exact hf _
    · rw [onCen_cenOf_other s f hy]
  head _ := ⟨rfl, rfl⟩
  occupancy := rfl
  channels h := ⟨h, rfl⟩

theorem Steady.onMgd {f : MgdArm → MgdArm} (hc : ∀ g c, hasCause g.causes c = true → hasCause (f g).causes c = true) :
    Steady s (s.onMgd x f) where
  causes y c h := by
    by_cases hy : y = x
    · subst hy
      rw [onMgd_mgdOf]
      exact hc _ c h
    · rwa [onMgd_mgdOf_other s f hy]
  reader _ := id
  inForce _ := rfl
  head _ := ⟨rfl, rfl⟩
  occupancy := rfl
  channels h := ⟨h, rfl⟩

theorem Steady.onPcc {f : PccArm → PccArm} (hh : ∀ p, (f p).headLast = p.headLast ∧ (f p).codeLast = p.codeLast) :
    Steady s (s.onPcc x f) where
  causes _ _ := id
  reader _ := id
  inForce _ := rfl
  head y := by
    by_cases hy : y = x
    · subst hy
      rw [onPcc_pccOf]
      exact hh _
    · rw [onPcc_pccOf_other s f hy]
      exact ⟨rfl, rfl⟩
  occupancy := rfl
  channels h := ⟨h, rfl⟩

theorem Steady.onThu {f : ThuArm → ThuArm} : Steady s (s.onThu x f) :=
  ⟨fun _ _ => id, fun _ => id, fun _ => rfl, fun _ => ⟨rfl, rfl⟩, rfl, fun h => ⟨h, rfl⟩⟩

/-- A change of the tips and the ports. -/
theorem Steady.tips {tips : List Tip} {ports : List PortState} :
    Steady s { s with pcc := { s.pcc with tips := tips, ports := ports } } :=
  ⟨fun _ _ => id, fun _ => id, fun _ => rfl, fun _ => ⟨rfl, rfl⟩, rfl, fun h => ⟨h, rfl⟩⟩

theorem Steady.raise {c : Cause} : Steady s (raise x c s) :=
  .onMgd fun _ _ h => hasCause_addCause.2 (.inl h)

theorem Steady.post {src : EventSource} {d : Detail} : Steady s (post src d s) := .of_touches (by simp)

theorem Steady.raiseMasked {m : MaskBit} {c : Cause} : Steady s (raiseMasked x m c s) := by
  unfold Machine.raiseMasked
  split
  · exact .raise
  · exact .refl s

theorem Steady.whenDo {f : State → State} {c : Bool} (h : ∀ u, Steady u (f u)) : Steady s (whenDo c f s) := by
  unfold Machine.whenDo
  split
  · exact h s
  · exact .refl s

theorem Steady.setPort {p : Nat} {v : PortState} : Steady s (setPort p v s) := .tips

theorem Steady.moveTip {t : Nat} {l : TipLocation} : Steady s (moveTip t l s) := .tips

theorem Steady.onSession {f : Session → Session} : Steady s (onSession x f s) := .onPcc fun _ => ⟨rfl, rfl⟩

theorem Steady.setZone {z : Nat} {v : Zone} : Steady s (setZone z v s) :=
  ⟨fun _ _ => id, fun _ => id, fun _ => rfl, fun _ => ⟨rfl, rfl⟩, rfl, fun h => ⟨h, rfl⟩⟩

theorem Steady.onTrigger {f : Trigger → Trigger} : Steady s (onTrigger x f s) := .of_touches (by simp)

/-! ### Zones, sessions and change steps -/

theorem Steady.grantZone {z : Nat} : Steady s (grantZone x z s) := by
  unfold Machine.grantZone
  dsimp only
  split
  · exact .after .onSession (.after .post .setZone)
  · exact .after .post .setZone

theorem Steady.releaseZone {announce : Bool} {z : Nat} : Steady s (releaseZone announce z s) := by
  unfold Machine.releaseZone
  split
  · exact .refl s
  · next h r w _ =>
    have hposted : Steady s (if announce || w then Machine.post (.zone h) (.released z) s else s) := by
      split
      · exact .post
      · exact .refl s
    dsimp only
    split
    · exact hposted.trans .grantZone
    · exact hposted.trans .setZone

theorem Steady.askRelease {z : Nat} : Steady s (askRelease x z s) := by
  unfold Machine.askRelease
  split
  · split_ifs
    · exact .releaseZone
    · exact .setZone
    · exact .refl s
  · exact .refl s

theorem Steady.withdrawWait {z : Nat} : Steady s (withdrawWait x z s) := by
  unfold Machine.withdrawWait
  split
  · split_ifs
    · exact .setZone
    · exact .refl s
  · exact .refl s

theorem Steady.deferredRelease {z : Nat} : Steady s (deferredRelease z s) := by
  unfold Machine.deferredRelease
  split
  · exact .releaseZone
  · exact .refl s

theorem Steady.clearSession : Steady s (clearSession x s) := .onPcc fun _ => ⟨rfl, rfl⟩

theorem Steady.completeSession : Steady s (completeSession x s) :=
  .after .clearSession (.after .onTrigger (.after .askRelease .post))

theorem Steady.cancelWaiting : Steady s (cancelWaiting x s) :=
  .after .clearSession (.after .onTrigger .withdrawWait)

theorem Steady.enterFault {c : FaultCause} {d : Detail} : Steady s (enterFault x c d s) := by
  unfold Machine.enterFault
  dsimp only
  split
  · exact .post
  · exact .after .post (.after .raise (.onPcc fun _ => ⟨rfl, rfl⟩))

theorem Steady.stepTimeout : Steady s (stepTimeout x s) := by
  unfold Machine.stepTimeout
  split
  · exact .enterFault
  · exact .refl s

theorem Steady.emptyHistory : Steady s (emptyHistory x s) := by
  have hemptied : Steady s (s.onCen x (fun c => { c with history := [] })) := .onCen (fun _ => id) (fun _ => rfl)
  unfold Machine.emptyHistory
  dsimp only
  split
  · exact hemptied.trans (.of_touches (by simp))
  · exact hemptied

theorem Steady.dropComplete : Steady s (dropComplete x s) := by
  unfold Machine.dropComplete dropDone
  dsimp only
  split
  · split
    · have hplaced {t p : Nat} : Steady s (Machine.emptyHistory x (Machine.setPort p (.holds t) (Machine.moveTip t (.port p) s))) :=
        .after .emptyHistory (.after .setPort .moveTip)
      split
      · exact .after .onSession (.after (.onPcc fun _ => ⟨rfl, rfl⟩) hplaced)
      · exact .after .completeSession hplaced
    · exact .refl s
  · exact .refl s

theorem Steady.losesTip : Steady s (losesTip x s) := .after .raise (.after .onTrigger .emptyHistory)

theorem Steady.markHead : Steady s (markHead x s) := by
  unfold Machine.markHead
  split
  · exact .onPcc fun _ => ⟨rfl, rfl⟩
  · exact .refl s

theorem Steady.disturb {m : Nat} {lost headLast : Bool} : Steady s (disturb x m lost headLast s) := by
  have hhead (u : State) : Steady u (Machine.whenDo lost (postHead x) u) := .whenDo fun _ => .post
  have hcancelled (b : Bool) (u : State) : Steady u (Machine.whenDo b (Machine.post (.change x) .cancelled) u) := .whenDo fun _ => .post
  have hfirst (b : Bool) : Steady s (Machine.whenDo b (cancelByMismatch x) (Machine.whenDo lost (Machine.losesTip x) s)) :=
    .after (.whenDo fun _ => .after .raise .cancelWaiting) (.whenDo fun _ => .losesTip)
  unfold Machine.disturb
  dsimp only
  refine .after (.whenDo fun _ => .markHead) ?_
  split
  · exact .after (hhead _) (.after (hcancelled _ _) (hfirst _))
  · exact .after (hcancelled _ _) (.after (hhead _) (hfirst _))

theorem Steady.unverifyFormer {l : TipLocation} {p : Nat} : Steady s (unverifyFormer l p s) := by
  unfold Machine.unverifyFormer
  split
  · split_ifs
    · exact .refl s
    · exact .setPort
  · exact .refl s

theorem Steady.pickComplete {headLast : Bool} : Steady s (pickComplete x headLast s) := by
  unfold Machine.pickComplete pickDone
  dsimp only
  split
  · split
    · split
      · exact .after .completeSession (.after .emptyHistory (.after .setPort .moveTip))
      · exact .after .enterFault (.after .setPort .moveTip)
      · exact .after .enterFault (.after .disturb (.after .emptyHistory (.after .unverifyFormer (.after .setPort
          (.after .moveTip .moveTip)))))
    · exact .refl s
  · exact .refl s

/-! ### Touches and the guard -/

theorem Steady.losePoint {seq : BitVec 16} {why : LostReason} : Steady s (losePoint x seq why s) := .after .raiseMasked .post

theorem Steady.numericOnset {sat beyond : BitVec 3} : Steady s (numericOnset x sat beyond s) := by
  unfold Machine.numericOnset
  exact .after (.whenDo fun _ => .raiseMasked) (.after (.whenDo fun _ => .raiseMasked) (.after (.whenDo fun _ => .post)
    (.onCen (fun _ => id) (fun _ => rfl))))

theorem Steady.joinQueue {p : Point} : Steady s (joinQueue p s) := by
  unfold Machine.joinQueue
  split
  · exact .of_touches (by simp)
  · exact .losePoint

theorem Steady.endTouch {l : Latch} : Steady s (endTouch x l s) := .of_touches (by simp [Machine.endTouch])

theorem Steady.finishTouch {t : Touch} : Steady s (finishTouch x t s) := by
  exact .after .endTouch (.after .joinQueue .numericOnset)

theorem Steady.resolveTouch : Steady s (resolveTouch x s) := by
  unfold Machine.resolveTouch
  split
  · exact .finishTouch
  · exact .refl s

theorem Steady.lateResolution : Steady s (lateResolution x s) := by
  unfold Machine.lateResolution lateTouch
  split
  · split
    · split
      · exact .finishTouch
      · exact .after .endTouch .losePoint
    · exact .refl s
  · exact .refl s

theorem Steady.softLimits {b : Bank} {g : Vec3} : Steady s (softLimits x b g s) := by
  unfold Machine.softLimits
  exact .after (.whenDo fun _ => .after (.whenDo fun _ => .raise) .post) (.onCen (fun _ => id) (fun _ => rfl))

theorem Steady.monitorArm {t : Vec3} : Steady s (monitorArm x t s) := by
  have honset (o : BitVec 8) (u : State) : Steady u (intrusionOnset x o u) := by
    unfold intrusionOnset
    dsimp only
    split_ifs
    · exact .refl u
    · exact .post
    · exact .after .raise .post
  unfold Machine.monitorArm
  split
  · exact .refl s
  · exact .after (.onMgd fun _ _ => id) (.after (honset _ _) (.after (.onMgd fun _ _ => id) (.onMgd fun _ _ => id)))

theorem Steady.autoAdvance : Steady s (autoAdvance x s) := by
  unfold Machine.autoAdvance
  split_ifs
  · exact .onThu
  · exact .after .onThu .onThu
  · exact .refl s

/-- A row's step taken within a pass. -/
theorem Steady.takeRow (p : Part) : Steady s (takeRow p s) := by
  cases p with
  | drain => exact .of_touches (t := drainPoints s) (by simp)
  | resolve x => exact .resolveTouch
  | late x => exact .lateResolution
  | drop x => exact .dropComplete
  | pick x l => exact .pickComplete
  | release z => exact .deferredRelease
  | rearm x => exact .of_touches (t := rearmExpiry x s) (by simp)
  | autoAdvance x => exact .autoAdvance
  | stepTimeout x => exact .stepTimeout
  | check k => exact .of_touches (t := checkComplete k s) (by simp)
  | _ => exact .refl s

end

end Sys2Proof.Proofs
end

section
/-! LOOP_BACK_PASS (O58): a return pass on which no slot is written. -/
namespace Sys2Proof.Proofs

open Sys2Proof.Machine Sys2Proof.Laws

section
variable {s t : State} {x : Arm} {window : Nat} {sync : BitVec 64} {map : Option Bank}

/-! ### Nothing is read -/

theorem slotWritten_nothing (off : Nat) : ¬ slotWritten [] off = true := by simp [slotWritten, Memory.read]

theorem readTemp_nothing {m r : Nat} : readTemp map [] m r = none := by
  unfold readTemp
  split
  · rfl
  · exact if_neg (slotWritten_nothing _)

theorem readProbe_nothing : readProbe map [] x = none := by
  unfold readProbe
  split
  · rfl
  · exact if_neg (slotWritten_nothing _)

theorem readRack_nothing : readRack map [] = none := by
  unfold readRack
  split
  · rfl
  · exact if_neg (slotWritten_nothing _)

theorem readSample_nothing : ∃ r, readSample map [] x = .invalid r 0 := by
  unfold readSample
  split
  · exact ⟨_, rfl⟩
  · exact ⟨.notWritten, if_neg (slotWritten_nothing _)⟩

/-- The reader condition and its cause stand on an arm. -/
def ReaderStands (s : State) (x : Arm) : Prop := (s.cenOf x).reader = true ∧ hasCause (s.mgdOf x).causes .reader = true

/-- An arm that a pass corrects. -/
def Corrects (s : State) (x : Arm) : Prop := s.riu.station = .run ∧ (s.cenOf x).inForce ≠ none

theorem ReaderStands.of_steady (h : ReaderStands s x) (hst : Steady s t) : ReaderStands t x :=
  ⟨hst.reader x h.1, hst.causes x .reader h.2⟩

theorem Steady.resolutionStep {c : Option (BitVec 64)} : Steady s (resolutionStep x c s) := .of_touches (by simp)

theorem Steady.correctInvalid {r : ReaderReason} {capture : BitVec 64} : Steady s (correctInvalid x r capture s).state :=
  .after .resolutionStep (.after (.whenDo fun _ => .post) (.after .raise (.onCen (fun _ _ => rfl) (fun _ => rfl))))

theorem readerStands_correctInvalid {r : ReaderReason} {capture : BitVec 64} : ReaderStands (correctInvalid x r capture s).state x := by
  have hraised : ReaderStands (raise x .reader (s.onCen x (fun c => { c with reader := true }))) x := by
    constructor
    · exact congrArg CenArm.reader (onCen_cenOf s x _)
    · refine (congrArg (fun g : MgdArm => hasCause g.causes .reader)
        (onMgd_mgdOf (s.onCen x (fun c => { c with reader := true })) x _)).trans ?_
      exact hasCause_addCause_self _ _
  exact hraised.of_steady (.after .resolutionStep (.whenDo fun _ => .post))

theorem Steady.correctArm_nothing : Steady s (correctArm x [] s).state := by
  obtain ⟨r, hr⟩ := readSample_nothing (map := activeBank .slotMap s) (x := x)
  unfold correctArm
  split
  · split
    · exact .resolutionStep
    · rw [hr]
      exact .correctInvalid
  · exact .refl s

theorem readerStands_correctArm (h : Corrects s x) : ReaderStands (correctArm x [] s).state x := by
  obtain ⟨r, hr⟩ := readSample_nothing (map := activeBank .slotMap s) (x := x)
  unfold correctArm
  rw [if_pos h.1]
  split
  · exact absurd ‹_› h.2
  · rw [hr]
    exact readerStands_correctInvalid

theorem Steady.restartChannels : Steady s (restartChannels s) := by
  unfold Machine.restartChannels
  split
  · next hr => exact ⟨fun _ _ => id, fun _ => id, fun _ => rfl, fun _ => ⟨rfl, rfl⟩, rfl, fun h => absurd (hr.symm.trans h) (by decide)⟩
  · exact .refl s

theorem Steady.staleOnset {a : Nat} : Steady s (staleOnset a s) :=
  .after (.whenDo fun _ => .raiseMasked) (.after (.whenDo fun _ => .raiseMasked) .post)

theorem Steady.aggregateRole {table : Bank} {a : Nat} : Steady s (aggregateRole table a s) :=
  .after (.whenDo fun _ => .staleOnset) ⟨fun _ _ => id, fun _ => id, fun _ => rfl, fun _ => ⟨rfl, rfl⟩, rfl, fun h => ⟨h, rfl⟩⟩

theorem Steady.takeThermal {t : ThermalStep} : Steady s (takeThermal sync [] t s) := by
  unfold Machine.takeThermal
  split
  · exact .refl s
  · cases t with
    | restart => exact .restartChannels
    | channel i =>
      dsimp only
      rw [intakeChannel_unread readTemp_nothing]
      exact .refl s
    | aggregate a => exact .aggregateRole

/-- A fold of steps, each of which leaves standing what stands. -/
theorem Steady.foldl {α : Type} {f : State → α → State} (h : ∀ u a, Steady u (f u a)) (l : List α) : Steady s (l.foldl f s) := by
  induction l generalizing s with
  | nil => exact .refl s
  | cons a l ih => exact (h s a).trans ih

theorem Steady.thermalPass {steps : List ThermalStep} : Steady s (thermalPass sync [] steps s) := .foldl (fun _ _ => .takeThermal) steps

theorem Steady.readStatus : Steady s (readStatus x [] s) := by
  unfold Machine.readStatus
  rw [readProbe_nothing]
  exact .refl s

theorem Steady.rackPass {spared : List Nat} {steps : List RackStep} : Steady s (rackPass [] spared steps s) := by
  refine .foldl (fun u t => ?_) steps
  unfold takeRack
  rw [readRack_nothing]
  exact .refl u

theorem Steady.writeReturn {off : Nat} {bytes : List Byte} : Steady s (writeReturn off bytes s) := .of_touches (by simp)

/-! ### The parts of the pass -/

theorem Steady.passChain {f : Chain → State → State} (h : ∀ r u, Steady u (f r u)) (w : PassWork) :
    Steady w.state (passChain x f w).state := by
  unfold Machine.passChain
  split
  · exact h _ _
  · exact .refl _

/-- A part of a pass without readings, no request waiting. -/
theorem Steady.takeOwn {w : PassWork} (p : Part) (hidle : w.state.rqu.awaiting = none) :
    Steady w.state (takeOwn ⟨[], window, sync⟩ p w).state := by
  cases p with
  | thermal => exact .thermalPass (s := w.state)
  | correct x => exact .after .writeReturn (.correctArm_nothing (s := w.state) (x := x))
  | numeric x => exact .passChain (fun r u => .numericOnset) w
  | limits x =>
    refine .passChain (fun r u => ?_) w
    unfold passLimits
    split
    · exact .softLimits
    · exact .refl u
  | monitor x => exact .passChain (fun r u => .monitorArm) w
  | status x => exact .readStatus (s := w.state)
  | rack => exact .rackPass (s := w.state)
  | checks => exact .of_touches (t := checksPass w.state) (by simp)
  | request =>
    change Steady w.state (takeAwaiting w.state)
    rw [takeAwaiting_quiet hidle]
    exact .refl _
  | select => exact .after .writeReturn (.of_touches (t := (selectEvent w.state).2) (by simp))
  | _ => exact .refl _

/-- What holds of a pass without readings while its parts are taken: it goes on from `s`, and an arm that it corrects is still to
be corrected or has its reader condition. -/
structure Unread (window : Nat) (s : State) (todo : List Part) (t : State) : Prop where
  inPass : InPass window s t
  steady : Steady s t
  reader : ∀ x, Corrects s x → .correct x ∈ todo ∨ ReaderStands t x

theorem Unread.own {w : PassWork} {p : Part} {todo : List Part} (hidle : s.rqu.awaiting = none)
    (h : Unread window s (p :: todo) w.state) : Unread window s todo (takeOwn ⟨[], window, sync⟩ p w).state := by
  have hwaits : w.state.rqu.awaiting = none := by rw [h.inPass.rqu, hidle]
  have hsteady := Steady.takeOwn (window := window) (sync := sync) p hwaits
  refine ⟨h.inPass.trans (.takeOwn p hwaits), h.steady.trans hsteady, fun x hx => ?_⟩
  rcases h.reader x hx with hmem | hstands
  · rcases List.mem_cons.mp hmem with rfl | hmem
    · refine .inr (ReaderStands.of_steady (readerStands_correctArm (s := w.state) ⟨?_, ?_⟩) .writeReturn)
      · rw [h.inPass.riu]
        exact hx.1
      · rw [h.steady.inForce]
        exact hx.2
    · exact .inl hmem
  · exact .inr (hstands.of_steady hsteady)

theorem Unread.step {todo : List Part} {u : State} (h : Unread window s todo t) (hp : InPass window t u) (hs : Steady t u) :
    Unread window s todo u :=
  ⟨h.inPass.trans hp, h.steady.trans hs, fun x hx => (h.reader x hx).imp_right (·.of_steady hs)⟩

theorem todo_passChain (f : Chain → State → State) (w : PassWork) : (passChain x f w).todo = w.todo := by
  unfold passChain
  split <;> rfl

theorem todo_takeOwn (c : PassInput) (p : Part) (w : PassWork) : (takeOwn c p w).todo = w.todo := by
  cases p with
  | numeric x | limits x | monitor x => exact todo_passChain _ w
  | _ => rfl

theorem Unread.takeChosen {w : PassWork} {p : Part} (hidle : s.rqu.awaiting = none) (hdrain : DrainsWithin window s)
    (h : Unread window s w.todo w.state) :
    Unread window s (takeChosen ⟨[], window, sync⟩ w p).todo (takeChosen ⟨[], window, sync⟩ w p).state := by
  unfold Machine.takeChosen
  split
  · exact h.step (.of_touches' (by simp)) .thermalPass
  · split
    · exact h.step (.of_touches' (by simp)) .rackPass
    · split
      · split
        · split
          · next hmem =>
            rw [todo_takeOwn]
            refine Unread.own (w := { w with todo := w.todo.erase p }) hidle ⟨h.inPass, h.steady, fun x hx => ?_⟩
            rcases h.reader x hx with hin | hstands
            · by_cases hp : Part.correct x = p
              · exact .inl (hp ▸ List.mem_cons_self)
              · exact .inl (List.mem_cons_of_mem _ ((List.mem_erase_of_ne hp).mpr hin))
            · exact .inr hstands
          · exact h
        · exact h.step (InPass.takeRow (hdrain.of_inPass h.inPass) p) (Steady.takeRow p)
      · exact h

/-- The parts of a pass without readings, in any order. -/
theorem Unread.runParts {w : PassWork} (order : List Part) (hidle : s.rqu.awaiting = none) (hdrain : DrainsWithin window s)
    (h : Unread window s w.todo w.state) : Unread window s [] (runParts ⟨[], window, sync⟩ order w).state := by
  have hchosen : ∀ (order : List Part) (w : PassWork), Unread window s w.todo w.state →
      Unread window s (order.foldl (Machine.takeChosen ⟨[], window, sync⟩) w).todo
        (order.foldl (Machine.takeChosen ⟨[], window, sync⟩) w).state := by
    intro order
    induction order with
    | nil => exact fun w h => h
    | cons p order ih => exact fun w h => ih _ (h.takeChosen hidle hdrain)
  have hrest : ∀ (todo : List Part) (w : PassWork), Unread window s todo w.state →
      Unread window s [] (todo.foldl (fun w p => Machine.takeOwn ⟨[], window, sync⟩ p w) w).state := by
    intro todo
    induction todo with
    | nil => exact fun w h => h
    | cons p todo ih => exact fun w h => ih _ (h.own hidle)
  exact hrest _ _ (hchosen order w h)

/-! ### The pass as a whole -/

variable {f : RingFrame}

theorem touches_openDrain (s : State) : Touches [.riu, .tcu] s (openDrain window s) := by
  unfold openDrain
  split
  · exact ⟨fun h => absurd (by decide) h, fun _ => rfl, fun _ => rfl, fun _ => rfl, fun _ => rfl, fun h => absurd (by decide) h,
      fun _ => rfl, fun _ => rfl, fun _ => rfl, rfl⟩
  · exact .refl _ s

theorem touches_passStart (f : RingFrame) (s : State) :
    Touches [.riu, .tcu] (bothArms refreshMap (clearDue s)) (passStart window f s) :=
  Touches.trans (t := takeFrame f (refreshRecord (bothArms refreshMap (clearDue s)))) (by simp [takeFrame]) (touches_openDrain _)

theorem inForce_passStart (f : RingFrame) (s : State) (x : Arm) : ((passStart window f s).cenOf x).inForce
    = (activeBank (.armMap x) s).map (fun b => ⟨b, (s.tbsOf (.armMap x)).generation⟩) := by
  rw [State.cenOf, (touches_passStart f s).cen (by decide)]
  cases x <;> rfl

theorem touches_finishReturn (s : State) : Touches [.riu] s (finishReturn window s) := by
  have hdrop (u : State) : Touches [.riu] u (dropLine1 u) := by
    unfold dropLine1
    split <;> simp
  exact Touches.trans (by simp) (hdrop _)

/-- The pass's start takes no reading. -/
theorem readings_passStart (f : RingFrame) (s : State) :
    (passStart window f s).pcc.occupancy = s.pcc.occupancy
      ∧ (∀ x, ((passStart window f s).pccOf x).headLast = (s.pccOf x).headLast
        ∧ ((passStart window f s).pccOf x).codeLast = (s.pccOf x).codeLast)
      ∧ (passStart window f s).thu = s.thu := by
  refine ⟨?_, fun x => ?_, (touches_passStart f s).thu (by decide)⟩
  · rw [(touches_passStart f s).pcc (by decide)]
    rfl
  · rw [State.pccOf, (touches_passStart f s).pcc (by decide)]
    cases x <;> exact ⟨rfl, rfl⟩

/-- What a pass without readings leaves: no reading, and in RUN the reader condition of every arm with an ARM MAP. -/
structure LoopedBack (s t : State) : Prop where
  reader    : s.riu.station = .run → ∀ x, activeBank (.armMap x) s ≠ none → ReaderStands t x
  channels  : s.thu.restart = false → t.thu.channels = s.thu.channels
  occupancy : t.pcc.occupancy = s.pcc.occupancy
  head      : ∀ x, (t.pccOf x).headLast = (s.pccOf x).headLast ∧ (t.pccOf x).codeLast = (s.pccOf x).codeLast

theorem loopedBack_returnPass {n : InFlight} {choices : PassChoices} (hidle : s.rqu.awaiting = none)
    (hslots : activeField (·.pointSlots) s ≤ 2) : LoopedBack s (returnPass n f [] choices s) := by
  have hstart : InPass n.window (drainOf n.window (takeFrame f (refreshRecord s))) (passStart n.window f s) := InPass.passStart
  have hpass := Unread.runParts (s := passStart n.window f s) (sync := n.sync) (w := passWork choices (passStart n.window f s))
    choices.order ((congrArg Rqu.awaiting hstart.rqu).trans hidle) (drainsWithin_passStart hslots)
    ⟨.refl _ _, .refl _, fun x _ => .inl (by cases x <;> simp [passWork, returnParts])⟩
  obtain ⟨hoccupancy, hhead, hthu⟩ := readings_passStart (window := n.window) f s
  have hfinish := touches_finishReturn (window := n.window)
    (runParts ⟨[], n.window, n.sync⟩ choices.order (passWork choices (passStart n.window f s))).state
  refine ⟨fun hrun x hmap => ?_, fun hr => ?_, ?_, fun x => ?_⟩
  · have hcorrects : Corrects (passStart n.window f s) x := by
      refine ⟨?_, ?_⟩
      · rw [hstart.riu]
        exact hrun
      · rw [inForce_passStart, ne_eq, Option.map_eq_none_iff]
        exact hmap
    have hstands := (hpass.reader x hcorrects).resolve_left List.not_mem_nil
    exact hstands.of_steady (.of_touches (hfinish.mono (by simp)))
  · have hkept := (hpass.steady.channels (by rw [hthu]; exact hr)).2
    exact (congrArg Thu.channels (hfinish.thu (by decide))).trans (hkept.trans (congrArg Thu.channels hthu))
  · exact (congrArg Pcc.occupancy (hfinish.pcc (by decide))).trans (hpass.steady.occupancy.trans hoccupancy)
  · have hsame : ((returnPass n f [] choices s).pccOf x) = _ := congrArg (fun p : Pcc => p.arm.get x) (hfinish.pcc (by decide))
    rw [hsame]
    exact ⟨(hpass.steady.head x).1.trans (hhead x).1, (hpass.steady.head x).2.trans (hhead x).2⟩

end

end Sys2Proof.Proofs
end

section
/-! LOOP_BACK_PASS (O58): the statement. -/
namespace Sys2Proof.Proofs

open Sys2Proof.Machine Sys2Proof.Laws

section
variable {s : State} {f : RingFrame} {q : Rqu}

theorem activeField_congr {t : State} (h : activeBank .stationRecord t = activeBank .stationRecord s) (g : StationRecord → Nat) :
    activeField g t = activeField g s := by
  unfold activeField stationRecord
  rw [h]

theorem head_afterTicks (f : RingFrame) (q : Rqu) (x : Arm) : ((afterTicks f q s).pccOf x).headLast = (s.pccOf x).headLast
    ∧ ((afterTicks f q s).pccOf x).codeLast = (s.pccOf x).codeLast := by
  have hticked : (afterTicks f q s).pccOf x = tickedPcc (s.pccOf x) := get_both s.pcc.arm x tickedPcc
  rw [hticked]
  exact ⟨rfl, rfl⟩

/-- With the link of P2 down the return pass follows at once. -/
theorem exec_loopBack {elapsed : Nat} {c : PassChoices} (h : Settled elapsed s) (hservice : InService s) (hup : s.riu.p1Up = true)
    (hdown : s.riu.p2Up = false) (hcycle : isCycleFrame f = true) (hend : outboundEnd false f s = afterTicks f q s) :
    exec (.cycleFrameOutbound elapsed f ⟨false, false, []⟩ c) s
      = .next (returnPass ⟨frameNumber f, syncTime f, windowOffset s, ⟨none, none⟩⟩ (outboundFrame false f s) [] c
        (countTurned (afterTicks f q s))) := by
  have hlink : ¬ (outboundEnd false f s).riu.p2Up = true := by
    rw [p2Up_outboundEnd, hdown]
    decide
  rw [exec_outbound h hservice hup hcycle, (outboundWork_default false).1, (outboundWork_default false).2, forwardCycle, if_neg hlink]
  simp only [outboundFrame, hend]
  rfl

end

/-- Settles O58: the outbound pass leaves the frame in flight, which its own return pass takes up at once with no slot written;
what the two leave in the RIU, the frame and the exchange is what they leave apart. -/
theorem loopBackPass : Obligations.LoopBackPass := by
  unfold Obligations.LoopBackPass
  intro s elapsed f c hsettled hservice hsound hup hdown hcycle hwf w hcode
  let q : Rqu := ⟨⟨BitVec.ofNat 16 (Memory.readLE f.payload (w + 2) 2), 0, none, []⟩, none⟩
  have hend : outboundEnd false f s = afterTicks f q s := by
    refine (takeRequest_none (r := readRequest f.payload (windowOffset s)) hcode).trans ?_
    exact congrArg (fun code => afterTicks f ⟨⟨BitVec.ofNat 16 (Memory.readLE f.payload (w + 2) 2), code, none, []⟩, none⟩ s) hcode
  have hrecord : activeBank .stationRecord (countTurned (afterTicks f q s)) = activeBank .stationRecord s :=
    activeBank_afterTicks (f := f) .stationRecord q
  have hslots : activeField (·.pointSlots) (countTurned (afterTicks f q s)) ≤ 2 := by
    rw [activeField_congr hrecord]
    exact pointSlots_le_two hsound
  obtain ⟨m0, hm0, hwf0, -⟩ := stampFrame_eq (f := f) (window := windowOffset s) (guard := guardWord (outboundEnd false f s))
    (activeBank .slotMap (outboundEnd false f s)) hwf
  have hframe : outboundFrame false f s = { f with payload := m0 } := hm0
  have hstamped : StampedBytes f (outboundFrame false f s) s :=
    stampedBytes_outboundFrame false hwf (by rw [hend]; rfl) (by rw [hend]; exact activeBank_afterTicks (f := f) .slotMap q)
  have hreturned : Returned w (outboundFrame false f s) (countTurned (afterTicks f q s)) _ :=
    returned_returnPass (n := ⟨frameNumber f, syncTime f, w, ⟨none, none⟩⟩) (input := []) (choices := c) rfl rfl hslots
      (by rw [hframe]; exact hwf0)
  have hlooped : LoopedBack (countTurned (afterTicks f q s)) _ :=
    loopedBack_returnPass (f := outboundFrame false f s) (n := ⟨frameNumber f, syncTime f, w, ⟨none, none⟩⟩) (choices := c) rfl hslots
  obtain ⟨m, hriu, hkept, hreply⟩ := hreturned.sent hup
  refine ⟨_, { f with payload := m }, exec_loopBack hsettled hservice hup hdown hcycle hend, ?riu, hreturned.rqu,
    fun hrun x hmap => hlooped.reader hrun x (by rwa [show activeBank (.armMap x) (countTurned (afterTicks f q s)) = _ from
      activeBank_afterTicks (f := f) (.armMap x) q]),
    hlooped.channels, hlooped.occupancy,
    fun x => ⟨(hlooped.head x).1.trans (head_afterTicks f q x).1, (hlooped.head x).2.trans (head_afterTicks f q x).2⟩, rfl, hreply.1,
    hreply.2.1, fun a ha hmark => ?bytes, hreturned.pending⟩
  case riu =>
    refine hriu.trans ?_
    rw [hrecord, hframe]
    rfl
  case bytes =>
    refine (hkept.kept a (by omega)).trans ((hstamped a).trans ?_)
    rw [if_neg hmark, if_neg (by omega), if_neg (by omega)]

end Sys2Proof.Proofs
end

section
/-! POSITION_BLOCKS (O60): what an arm sample slot holds, the onsets of saturation and of the range condition, the soft limits,
and the correction of an invalid sample. -/
namespace Sys2Proof.Proofs

open Sys2Proof.Machine Sys2Proof.Laws

section
variable {s u : State} {x : Arm} {p : Memory 8} {off : Nat}

/-! ### The arm sample -/

theorem signedBits_readLE (p : Memory 8) (o : Nat) : signedBits 32 (Memory.readLE p o 4) = intAt p o := rfl

theorem readSample_unplaced (h : slotPlace s (.armSample x) = none) : readSample (activeBank .slotMap s) p x = .invalid .noSlot 0 := by
  unfold readSample
  rw [show (activeBank .slotMap s).bind (fun b => slotOffset b (.armSample x)) = none from h]

theorem readSample_placed (h : slotPlace s (.armSample x) = some off) : readSample (activeBank .slotMap s) p x =
    if slotWritten p off then
      if Memory.read p (off + 1) = 2 then .invalid .notReferenced (BitVec.ofNat 64 (Memory.readLE p (off + 16) 8))
      else if Memory.read p (off + 1) = 0 then
        .valid ⟨⟨intAt p (off + 4), intAt p (off + 8), intAt p (off + 12)⟩, BitVec.ofNat 64 (Memory.readLE p (off + 16) 8)⟩
      else .invalid .scaleFault (BitVec.ofNat 64 (Memory.readLE p (off + 16) 8))
    else .invalid .notWritten 0 := by
  unfold readSample
  rw [show (activeBank .slotMap s).bind (fun b => slotOffset b (.armSample x)) = some off from h]
  rfl

/-! ### The onsets of a correction -/

theorem hasCause_whenDo_raiseMasked {c : Bool} {m : MaskBit} {k j : Cause} :
    hasCause ((whenDo c (raiseMasked x m k) s).mgdOf x).causes j = true
      ↔ hasCause (s.mgdOf x).causes j = true ∨ (j = k ∧ c = true ∧ MaskHas s x (maskIndex m)) := by
  rw [← maskSet_iff]
  unfold whenDo raiseMasked
  by_cases hc : c = true
  · by_cases hm : maskSet x m s = true
    · rw [if_pos hc, if_pos hm, raise, onMgd_mgdOf, hasCause_addCause]
      simp [hc, hm]
    · rw [if_pos hc, if_neg hm]
      simp [hm]
  · rw [if_neg hc]
    simp [hc]

theorem whenDo_raiseMasked_frame {c : Bool} {m : MaskBit} {k : Cause} :
    (whenDo c (raiseMasked x m k) s).mgd = { s.mgd with arm := (whenDo c (raiseMasked x m k) s).mgd.arm }
      ∧ (whenDo c (raiseMasked x m k) s).mgdOf x = { s.mgdOf x with causes := ((whenDo c (raiseMasked x m k) s).mgdOf x).causes }
      ∧ (whenDo c (raiseMasked x m k) s).mgdOf (otherArm x) = s.mgdOf (otherArm x) := by
  unfold whenDo raiseMasked
  split_ifs
  · refine ⟨rfl, ?_, get_modify_otherArm ..⟩
    rw [raise, onMgd_mgdOf]
  · exact ⟨rfl, rfl, rfl⟩
  · exact ⟨rfl, rfl, rfl⟩

/-- R19, R20: the onsets of a correction. -/
theorem numericOnset_eq (sat beyond : BitVec 3) :
    let onSat := decide (sat ≠ 0) && !(s.cenOf x).satSeen
    let onBeyond := decide (beyond ≠ 0) && !(s.cenOf x).rangeSeen
    numericOnset x sat beyond s = { s with
      cen := s.cen.modify x (fun c =>
        { c with satSeen := c.satSeen || decide (sat ≠ 0), rangeSeen := c.rangeSeen || decide (beyond ≠ 0) })
      mgd := (whenDo onBeyond (raiseMasked x .mapRange .mapRange) (whenDo onSat (raiseMasked x .numeric .numeric) s)).mgd
      evu := (whenDo (onSat || onBeyond) (post .numeric (.numeric x onSat onBeyond (if onSat then sat else 0)
        (if onBeyond then beyond else 0))) s).evu } := by
  intro onSat onBeyond
  let noted := s.onCen x (fun c => { c with satSeen := c.satSeen || onSat, rangeSeen := c.rangeSeen || onBeyond })
  let posting := post .numeric (.numeric x onSat onBeyond (if onSat then sat else 0) (if onBeyond then beyond else 0))
  have hcen : noted.cen = s.cen.modify x (fun c =>
      { c with satSeen := c.satSeen || decide (sat ≠ 0), rangeSeen := c.rangeSeen || decide (beyond ≠ 0) }) := by
    have hseen (a b : Bool) : (a || (b && !a)) = (a || b) := by cases a <;> simp
    exact modify_congr (f := fun c : CenArm => { c with satSeen := c.satSeen || onSat, rangeSeen := c.rangeSeen || onBeyond })
      (congrArg₂ (fun a b => { s.cen.get x with satSeen := a, rangeSeen := b }) (hseen _ _) (hseen _ _))
  have hbank : armBank x (whenDo (onSat || onBeyond) posting noted) = armBank x s := by
    rw [whenDo_post_eq]
    cases x <;> rfl
  have hevu : (whenDo (onSat || onBeyond) posting noted).evu = (whenDo (onSat || onBeyond) posting s).evu := whenDo_post_evu rfl
  have hmgd : (whenDo onSat (raiseMasked x .numeric .numeric) (whenDo (onSat || onBeyond) posting noted)).mgd
      = (whenDo onSat (raiseMasked x .numeric .numeric) s).mgd :=
    whenDo_raiseMasked_mgd (by rw [whenDo_post_eq]; rfl) hbank
  have hbank' : armBank x (whenDo onSat (raiseMasked x .numeric .numeric) (whenDo (onSat || onBeyond) posting noted))
      = armBank x (whenDo onSat (raiseMasked x .numeric .numeric) s) := by
    rw [whenDo_raiseMasked_eq, whenDo_raiseMasked_eq (s := s)]
    exact hbank
  have hmgd' := whenDo_raiseMasked_mgd (c := onBeyond) (m := .mapRange) (k := .mapRange) hmgd hbank'
  change whenDo onBeyond (raiseMasked x .mapRange .mapRange) (whenDo onSat (raiseMasked x .numeric .numeric)
    (whenDo (onSat || onBeyond) posting noted)) = _
  rw [whenDo_raiseMasked_eq, hmgd', whenDo_raiseMasked_eq, whenDo_post_eq, hevu, ← hcen]
  rfl

/-! ### The soft limits -/

theorem axisRecord_bounds (b : Bank) (a : Nat) :
    (axisRecord b a).lo = word40 b (11 * a + 4) ∧ (axisRecord b a).hi = word40 b (11 * a + 6) := ⟨rfl, rfl⟩

theorem limitCondition_bits (b : Bank) (g : Vec3) :
    (limitCondition b g).getLsbD 0 = decide (g.x < word40 b (11 * 0 + 4))
      ∧ (limitCondition b g).getLsbD 1 = decide (word40 b (11 * 0 + 6) < g.x)
      ∧ (limitCondition b g).getLsbD 2 = decide (g.y < word40 b (11 * 1 + 4))
      ∧ (limitCondition b g).getLsbD 3 = decide (word40 b (11 * 1 + 6) < g.y)
      ∧ (limitCondition b g).getLsbD 4 = decide (g.z < word40 b (11 * 2 + 4))
      ∧ (limitCondition b g).getLsbD 5 = decide (word40 b (11 * 2 + 6) < g.z) :=
  ⟨getLsbD_ofNat_bitsNat (by decide), getLsbD_ofNat_bitsNat (by decide), getLsbD_ofNat_bitsNat (by decide),
   getLsbD_ofNat_bitsNat (by decide), getLsbD_ofNat_bitsNat (by decide), getLsbD_ofNat_bitsNat (by decide)⟩

theorem softLimits_quiet {b : Bank} {g : Vec3} (h : ¬ ((s.cenOf x).limit = 0 ∧ limitCondition b g ≠ 0)) :
    softLimits x b g s = s.onCen x (fun c => { c with limit := limitCondition b g }) := by
  unfold softLimits whenDo
  exact if_neg (by simpa using h)

theorem softLimits_onset {b : Bank} {g : Vec3} (h : (s.cenOf x).limit = 0 ∧ limitCondition b g ≠ 0) :
    softLimits x b g s = (if hasCreepLimit (s.mgdOf x).creep then id else raise x .limit)
      (post (.limit x) (.limits (limitCondition b g)) (s.onCen x (fun c => { c with limit := limitCondition b g }))) := by
  unfold softLimits whenDo
  dsimp only
  rw [if_pos (by simpa using h)]
  change (if (!hasCreepLimit (s.mgdOf x).creep) = true then _ else _) = _
  cases hasCreepLimit (s.mgdOf x).creep <;> rfl

theorem limit_softLimits (b : Bank) (g : Vec3) : ((softLimits x b g s).cenOf x).limit = limitCondition b g := by
  by_cases h : (s.cenOf x).limit = 0 ∧ limitCondition b g ≠ 0
  · have hcen : (softLimits x b g s).cen = (s.onCen x (fun c => { c with limit := limitCondition b g })).cen := by
      rw [softLimits_onset h]
      split <;> rfl
    rw [State.cenOf, hcen]
    exact congrArg CenArm.limit (onCen_cenOf s x _)
  · rw [softLimits_quiet h, onCen_cenOf]

end

end Sys2Proof.Proofs
end

section
/-! POSITION_BLOCKS (O60): the correction of an arm by what its sample slot holds, and what a pass's parts for one arm read and
leave. -/
namespace Sys2Proof.Proofs

open Sys2Proof.Machine Sys2Proof.Laws

/-- A trigger on a pass without a resolution: a latch is one pass older, and due late at the latch limit. -/
def agedTcu (limit : Nat) (u : TcuArm) : TcuArm :=
  match u.trigger with
  | .latched l => { u with
      trigger := .latched { l with age := l.age + 1 }, touchDue := if limit ≤ l.age + 1 then .late else .none }
  | _ => { u with touchDue := .none }

section
variable {s t u : State} {x : Arm} {input : Memory 8} {window : Nat}

/-! ### The trigger on a pass -/

theorem ageLatch_eq : ageLatch x s = s.onTcu x (agedTcu (stationField (·.latchLimit) s)) := by
  unfold ageLatch
  split
  · next l h => exact onTcu_congr (by simp only [agedTcu, show (s.tcuOf x).trigger = .latched l from h])
  · next h =>
    refine onTcu_congr ?_
    unfold agedTcu
    split
    · next l hl => exact absurd hl (h l)
    · rfl

theorem resolutionStep_none : resolutionStep x none s = ageLatch x s := by
  unfold resolutionStep
  cases triggerOf s x <;> rfl

theorem resolutionStep_resolves {l : Latch} {c : BitVec 64} (h : triggerOf s x = .latched l) (hc : l.contact ≤ (c.toNat : Int)) :
    resolutionStep x (some c) s = s.onTcu x (fun u => { u with touchDue := .resolve }) := by
  unfold resolutionStep
  rw [h]
  exact if_pos hc

theorem resolutionStep_ages {c : BitVec 64} (h : ∀ l, triggerOf s x = .latched l → (c.toNat : Int) < l.contact) :
    resolutionStep x (some c) s = ageLatch x s := by
  unfold resolutionStep
  cases ht : triggerOf s x with
  | latched l => exact if_neg (not_le.mpr (h l ht))
  | _ => rfl

/-! ### The correction by what the sample slot holds -/

theorem correctArm_off (h : s.riu.station ≠ .run) : correctArm x input s = ⟨offForm x s, s, none⟩ := by
  unfold correctArm
  exact if_neg h

theorem correctArm_unmapped (h : s.riu.station = .run) (hmap : (s.cenOf x).inForce = none) :
    correctArm x input s = ⟨offForm x s, ageLatch x s, none⟩ := by
  unfold correctArm
  rw [if_pos h, hmap, ← resolutionStep_none]

theorem correctArm_invalid {f : ArmInForce} {r : ReaderReason} {capture : BitVec 64} (h : s.riu.station = .run)
    (hmap : (s.cenOf x).inForce = some f) (hsample : readSample (activeBank .slotMap s) input x = .invalid r capture) :
    correctArm x input s = correctInvalid x r capture s := by
  unfold correctArm
  rw [if_pos h, hmap]
  dsimp only
  rw [hsample]

theorem correctArm_valid {f : ArmInForce} {v : ArmSample} (h : s.riu.station = .run)
    (hmap : (s.cenOf x).inForce = some f) (hsample : readSample (activeBank .slotMap s) input x = .valid v) :
    correctArm x input s = correctValid x f v s := by
  unfold correctArm
  rw [if_pos h, hmap]
  dsimp only
  rw [hsample]

/-! ### What the correction of an arm reads -/

/-- Two blocks that an arm's correction cannot tell apart. -/
structure SameArm (x : Arm) (s u : State) : Prop where
  cen     : u.cenOf x = s.cenOf x
  tcu     : u.tcuOf x = s.tcuOf x
  applied : (u.thuOf x).applied = (s.thuOf x).applied
  pcc     : u.pcc = s.pcc
  tbs     : u.tbs = s.tbs
  riu     : u.riu = { s.riu with sent1 := u.riu.sent1 }

theorem SameArm.refl (x : Arm) (s : State) : SameArm x s s := ⟨rfl, rfl, rfl, rfl, rfl, rfl⟩

theorem SameArm.trans (h : SameArm x s t) (h' : SameArm x t u) : SameArm x s u :=
  ⟨h'.cen.trans h.cen, h'.tcu.trans h.tcu, h'.applied.trans h.applied, h'.pcc.trans h.pcc, h'.tbs.trans h.tbs,
   by rw [h'.riu, h.riu]⟩

theorem SameArm.of_touches (h : Touches [.mgd, .evu] s u) : SameArm x s u := by
  refine ⟨?_, ?_, ?_, h.pcc (by decide), h.tbs (by decide), ?_⟩
  · rw [State.cenOf, h.cen (by decide), State.cenOf]
  · rw [State.tcuOf, h.tcu (by decide), State.tcuOf]
  · rw [State.thuOf, h.thu (by decide), State.thuOf]
  · rw [h.riu (by decide)]

theorem SameArm.writeReturn {off : Nat} {bytes : List Byte} : SameArm x s (writeReturn off bytes s) :=
  ⟨rfl, rfl, rfl, rfl, rfl, rfl⟩

theorem SameArm.recordInForce (h : SameArm x s u) : recordInForce u = recordInForce s := by
  have hrecord : u.riu.record = s.riu.record := (congrArg Riu.record h.riu).trans rfl
  have hactive : activeBank .stationRecord u = activeBank .stationRecord s := activeBank_congr h.tbs
  unfold Machine.recordInForce stationRecord
  rw [hrecord, hactive]

theorem SameArm.mountedOffset (h : SameArm x s u) : mountedOffset u x = mountedOffset s x := by
  have hflight : u.riu.inFlight = s.riu.inFlight := (congrArg Riu.inFlight h.riu).trans rfl
  unfold Machine.mountedOffset passOffset mountedTip findTip tipOf
  rw [hflight, h.pcc]

theorem SameArm.roundingMode (h : SameArm x s u) : roundingMode u = roundingMode s := by
  unfold Machine.roundingMode
  rw [h.recordInForce]

theorem SameArm.mountedTip (h : SameArm x s u) : mountedTip u x = mountedTip s x := by
  unfold Machine.mountedTip findTip tipOf
  rw [h.pcc]

theorem SameArm.mountedRef (h : SameArm x s u) : mountedRef u x = mountedRef s x := by
  unfold Machine.mountedRef
  rw [h.mountedTip]
  unfold tipOf
  rw [h.pcc]

theorem SameArm.passFlags (h : SameArm x s u) (r : Chain) : passFlags u x r = passFlags s x r := by
  unfold Machine.passFlags
  rw [h.applied, h.mountedTip]

theorem SameArm.latchLimit (h : SameArm x s u) : stationField (·.latchLimit) u = stationField (·.latchLimit) s := by
  unfold stationField
  rw [h.recordInForce]

/-! ### A valid sample -/

/-- The correction chain of a valid sample. -/
def sampleChain (x : Arm) (f : ArmInForce) (v : ArmSample) (s : State) : Chain :=
  chain f.bank (s.thuOf x).applied (mountedOffset s x) (roundingMode s) v.counts

/-- The history entry of a valid sample. -/
def sampleEntry (x : Arm) (f : ArmInForce) (v : ArmSample) (s : State) : HistoryEntry :=
  ⟨(sampleChain x f v s).t, v.capture, passFlags s x (sampleChain x f v s), mountedRef s x, f.generation, (s.thuOf x).applied.epoch⟩

theorem SameArm.sampleChain (h : SameArm x s u) (f : ArmInForce) (v : ArmSample) : sampleChain x f v u = sampleChain x f v s := by
  unfold Proofs.sampleChain
  rw [h.applied, h.mountedOffset, h.roundingMode]

theorem SameArm.sampleEntry (h : SameArm x s u) (f : ArmInForce) (v : ArmSample) : sampleEntry x f v u = sampleEntry x f v s := by
  unfold Proofs.sampleEntry
  rw [h.sampleChain, h.passFlags, h.mountedRef, h.applied]

/-- The entries of a history that were made by an entry's ARM MAP. -/
def keptEntries (h : List HistoryEntry) (e : HistoryEntry) : List HistoryEntry :=
  h.filter (fun o => decide (o.generation = e.generation))

/-- Whether an entry is later than the newest that is kept. -/
def IsNewer (h : List HistoryEntry) (e : HistoryEntry) : Prop := ∀ o ∈ (keptEntries h e).getLast?, o.capture.toNat < e.capture.toNat

theorem appendEntry_newer {h : List HistoryEntry} {e : HistoryEntry} (hn : IsNewer h e) :
    appendEntry h e = ((keptEntries h e ++ [e]).rtake 4, true) := by
  unfold appendEntry
  change (match (keptEntries h e).getLast? with
    | some newest => _
    | none => _) = _
  cases hlast : (keptEntries h e).getLast? with
  | none =>
    rw [List.getLast?_eq_none_iff] at hlast
    rw [hlast]
    rfl
  | some newest =>
    refine (if_pos (hn newest hlast)).trans ?_
    rw [List.rtake, List.length_append]
    rfl

theorem appendEntry_older {h : List HistoryEntry} {e : HistoryEntry} (hn : ¬ IsNewer h e) :
    appendEntry h e = (keptEntries h e, false) := by
  unfold appendEntry
  change (match (keptEntries h e).getLast? with
    | some newest => _
    | none => _) = _
  cases hlast : (keptEntries h e).getLast? with
  | none => exact absurd (fun o ho => by rw [hlast] at ho; cases ho) hn
  | some newest =>
    refine if_neg (fun hlt => hn fun o ho => ?_)
    rw [hlast] at ho
    cases ho
    exact hlt

end

end Sys2Proof.Proofs
end

section
/-! POSITION_BLOCKS (O60): the parts of a pass for one arm, by what its sample slot holds. -/
namespace Sys2Proof.Proofs

open Sys2Proof.Machine Sys2Proof.Laws

section
variable {s t u : State} {x : Arm} {input : Memory 8} {window : Nat}

/-! ### Frames -/

theorem cenOf_resolutionStep (c : Option (BitVec 64)) (y : Arm) : (resolutionStep x c s).cenOf y = s.cenOf y := by
  have htouches : Touches [.tcu] s (resolutionStep x c s) := by simp
  rw [State.cenOf, htouches.cen (by decide), State.cenOf]

theorem tcuOf_resolutionStep_other (c : Option (BitVec 64)) : (resolutionStep x c s).tcuOf (otherArm x) = s.tcuOf (otherArm x) := by
  unfold resolutionStep
  split
  · split_ifs
    · exact get_modify_otherArm ..
    · rw [ageLatch_eq]
      exact get_modify_otherArm ..
  · rw [ageLatch_eq]
    exact get_modify_otherArm ..

/-- A correction changes, but for events and causes, its own arm alone. -/
theorem correctArm_other : ((correctArm x input s).state.cenOf (otherArm x) = s.cenOf (otherArm x))
    ∧ (correctArm x input s).state.tcuOf (otherArm x) = s.tcuOf (otherArm x) := by
  have hinvalid (r : ReaderReason) (capture : BitVec 64) :
      (correctInvalid x r capture s).state.cenOf (otherArm x) = s.cenOf (otherArm x)
        ∧ (correctInvalid x r capture s).state.tcuOf (otherArm x) = s.tcuOf (otherArm x) := by
    unfold correctInvalid whenDo
    dsimp only
    rw [cenOf_resolutionStep, tcuOf_resolutionStep_other]
    split_ifs <;> exact ⟨get_modify_otherArm .., rfl⟩
  unfold correctArm
  split
  · split
    · exact ⟨cenOf_resolutionStep .., tcuOf_resolutionStep_other _⟩
    · split
      · exact hinvalid _ _
      · unfold correctValid
        dsimp only
        rw [cenOf_resolutionStep, tcuOf_resolutionStep_other]
        exact ⟨get_modify_otherArm .., rfl⟩
  · exact ⟨rfl, rfl⟩

theorem correctArm_touches_own : Touches [.cen, .tcu, .mgd, .evu] s (correctArm x input s).state := by simp

/-- What the onsets, the limits and the guard leave of the arms' corrections. -/
theorem guardParts (r : Chain) :
    let v := monitorArm x r.t (passLimits x r (numericOnset x r.saturated r.beyond s))
    Touches [.cen, .mgd, .evu] s v
      ∧ (v.cenOf x).history = (s.cenOf x).history ∧ (v.cenOf x).reader = (s.cenOf x).reader
      ∧ v.cenOf (otherArm x) = s.cenOf (otherArm x)
      ∧ ∀ f, (s.cenOf x).inForce = some f → (v.cenOf x).limit = limitCondition f.bank r.g := by
  intro v
  let noted := numericOnset x r.saturated r.beyond s
  have hnoted : noted.cen = s.cen.modify x (fun c =>
      { c with satSeen := c.satSeen || decide (r.saturated ≠ 0), rangeSeen := c.rangeSeen || decide (r.beyond ≠ 0) }) := by
    change (numericOnset x r.saturated r.beyond s).cen = _
    rw [numericOnset_eq]
  have hmonitor : v.cen = (passLimits x r noted).cen := by
    have htouches : Touches [.mgd, .evu] (passLimits x r noted) v := (monitorArm_touches x r.t (by decide) (by decide)).mpr (.refl _ _)
    exact htouches.cen (by decide)
  have hlimits : ∃ g : CenArm → CenArm, (∀ c, (g c).history = c.history ∧ (g c).reader = c.reader)
      ∧ (passLimits x r noted).cen = noted.cen.modify x g := by
    unfold passLimits
    split
    · next b _ =>
      refine ⟨fun c => { c with limit := limitCondition b r.g }, fun c => ⟨rfl, rfl⟩, ?_⟩
      by_cases h : (noted.cenOf x).limit = 0 ∧ limitCondition b r.g ≠ 0
      · rw [softLimits_onset h]
        split <;> rfl
      · rw [softLimits_quiet h]
        rfl
    · exact ⟨id, fun c => ⟨rfl, rfl⟩, (modify_self rfl).symm⟩
  obtain ⟨g, hg, hcen⟩ := hlimits
  have hv : v.cenOf x = g (noted.cenOf x) := by
    rw [State.cenOf, hmonitor, hcen]
    exact get_modify_self ..
  have hn : noted.cenOf x = { s.cenOf x with
      satSeen := (s.cenOf x).satSeen || decide (r.saturated ≠ 0), rangeSeen := (s.cenOf x).rangeSeen || decide (r.beyond ≠ 0) } := by
    rw [State.cenOf, hnoted]
    exact get_modify_self ..
  refine ⟨by simp [v], ?_, ?_, ?_, fun f hf => ?_⟩
  · rw [hv, (hg _).1, hn]
  · rw [hv, (hg _).2, hn]
  · rw [State.cenOf, hmonitor, hcen, get_modify_otherArm, hnoted, get_modify_otherArm, State.cenOf]
  · have hbank : armBank x noted = some f.bank := by
      unfold armBank
      rw [hn]
      exact congrArg (Option.map ArmInForce.bank) hf
    rw [State.cenOf, hmonitor, passLimits, hbank]
    exact limit_softLimits f.bank r.g

/-- The parts of a pass for an arm change, but for events, causes and the guard's state, that arm alone. -/
theorem armParts_other : SameArm (otherArm x) s (armParts x input window s) := by
  have hcorrect : SameArm (otherArm x) s (writeReturn (window + windowPosition x) (correctArm x input s).block (correctArm x input s).state) := by
    obtain ⟨hcen, htcu⟩ := correctArm_other (s := s) (x := x) (input := input)
    have htouches := correctArm_touches_own (s := s) (x := x) (input := input)
    refine SameArm.trans ⟨hcen, htcu, ?_, htouches.pcc (by decide), htouches.tbs (by decide), ?_⟩ .writeReturn
    · rw [State.thuOf, htouches.thu (by decide), State.thuOf]
    · rw [htouches.riu (by decide)]
  unfold armParts
  dsimp only
  split
  · next c _ =>
    obtain ⟨htouches, -, -, hother, -⟩ := guardParts (x := x)
      (s := writeReturn (window + windowPosition x) (correctArm x input s).block (correctArm x input s).state) c
    refine hcorrect.trans ⟨hother, ?_, ?_, htouches.pcc (by decide), htouches.tbs (by decide), ?_⟩
    · rw [State.tcuOf, htouches.tcu (by decide), State.tcuOf]
    · rw [State.thuOf, htouches.thu (by decide), State.thuOf]
    · rw [htouches.riu (by decide)]
  · exact hcorrect

/-! ### By what the sample slot holds -/

theorem tcuOf_resolutionStep_congr {c : Option (BitVec 64)} (h : u.tcuOf x = s.tcuOf x)
    (hlimit : stationField (·.latchLimit) u = stationField (·.latchLimit) s) :
    (resolutionStep x c u).tcuOf x = (resolutionStep x c s).tcuOf x := by
  have haged : (ageLatch x u).tcuOf x = (ageLatch x s).tcuOf x := by
    rw [ageLatch_eq, ageLatch_eq, onTcu_tcuOf, onTcu_tcuOf, h, hlimit]
  have htrigger : triggerOf u x = triggerOf s x := congrArg TcuArm.trigger h
  cases c with
  | none => rwa [resolutionStep_none, resolutionStep_none]
  | some c =>
    by_cases hresolves : ∃ l, triggerOf s x = .latched l ∧ l.contact ≤ (c.toNat : Int)
    · obtain ⟨l, hl, hc⟩ := hresolves
      rw [resolutionStep_resolves (htrigger.trans hl) hc, resolutionStep_resolves hl hc, onTcu_tcuOf, onTcu_tcuOf, h]
    · have hages (l : Latch) (hl : triggerOf s x = .latched l) : (c.toNat : Int) < l.contact :=
        not_le.mp (fun hc => hresolves ⟨l, hl, hc⟩)
      rwa [resolutionStep_ages (fun l hl => hages l (htrigger.symm.trans hl)), resolutionStep_ages hages]

theorem armParts_off (h : SameArm x s u) (hst : s.riu.station ≠ .run) :
    (correctArm x input u).block = positionBytes ⟨0, 0, 0⟩ 0 (s.thuOf x).applied.epoch 0
      ∧ (armParts x input window u).cenOf x = s.cenOf x ∧ (armParts x input window u).tcuOf x = s.tcuOf x := by
  have hstation : u.riu.station ≠ .run := by rwa [h.riu]
  unfold armParts
  rw [correctArm_off hstation]
  exact ⟨by rw [← h.applied]; rfl, h.cen, h.tcu⟩

theorem armParts_unmapped (h : SameArm x s u) (hst : s.riu.station = .run) (hmap : (s.cenOf x).inForce = none) :
    (correctArm x input u).block = positionBytes ⟨0, 0, 0⟩ 0 (s.thuOf x).applied.epoch 0
      ∧ (armParts x input window u).cenOf x = s.cenOf x
      ∧ (armParts x input window u).tcuOf x = agedTcu (stationField (·.latchLimit) s) (s.tcuOf x) := by
  have hstation : u.riu.station = .run := by rwa [h.riu]
  unfold armParts
  rw [correctArm_unmapped hstation (h.cen ▸ hmap), ageLatch_eq, ← h.latchLimit, ← h.tcu]
  exact ⟨by rw [← h.applied]; rfl, h.cen, onTcu_tcuOf ..⟩

theorem armParts_invalid {f : ArmInForce} {r : ReaderReason} {capture : BitVec 64} (h : SameArm x s u)
    (hst : s.riu.station = .run) (hmap : (s.cenOf x).inForce = some f)
    (hsample : readSample (activeBank .slotMap s) input x = .invalid r capture) :
    (correctArm x input u).block = positionBytes ⟨0, 0, 0⟩ capture (s.thuOf x).applied.epoch 0
      ∧ (armParts x input window u).cenOf x = { s.cenOf x with reader := true }
      ∧ (armParts x input window u).tcuOf x = agedTcu (stationField (·.latchLimit) s) (s.tcuOf x)
      ∧ hasCause ((armParts x input window u).mgdOf x).causes .reader = true := by
  have hstation : u.riu.station = .run := by rwa [h.riu]
  have hcorrect : correctArm x input u = correctInvalid x r capture u :=
    correctArm_invalid hstation (h.cen ▸ hmap) (by rwa [activeBank_congr h.tbs])
  have hparts : armParts x input window u = writeReturn (window + windowPosition x) (correctInvalid x r capture u).block
      (correctInvalid x r capture u).state := by
    unfold armParts
    rw [hcorrect]
    rfl
  have hheld (v : State) (hv : v = whenDo (!(u.cenOf x).reader) (post (.reader x) (.reader r))
      (raise x .reader (u.onCen x (fun c => { c with reader := true })))) :
      v.cenOf x = { s.cenOf x with reader := true } ∧ v.tcu = u.tcu ∧ recordInForce v = recordInForce u := by
    rw [hv, whenDo_post_eq, ← h.cen]
    exact ⟨onCen_cenOf u x _, rfl, rfl⟩
  obtain ⟨hcen, htcu, hrecord⟩ := hheld _ rfl
  rw [hparts]
  refine ⟨by rw [hcorrect, ← h.applied]; rfl, ?_, ?_, readerStands_correctInvalid.2⟩
  · exact (cenOf_resolutionStep _ x).trans hcen
  · change (resolutionStep x none _).tcuOf x = _
    rw [resolutionStep_none, ageLatch_eq, onTcu_tcuOf, State.tcuOf, htcu, ← h.latchLimit, ← h.tcu, stationField, hrecord]
    rfl

theorem armParts_valid {f : ArmInForce} {v : ArmSample} (h : SameArm x s u) (hst : s.riu.station = .run)
    (hmap : (s.cenOf x).inForce = some f) (hsample : readSample (activeBank .slotMap s) input x = .valid v) :
    let r := sampleChain x f v s
    let appended := appendEntry (s.cenOf x).history (sampleEntry x f v s)
    let w := armParts x input window u
    (correctArm x input u).block = positionBytes r.out v.capture (s.thuOf x).applied.epoch (passFlags s x r)
      ∧ (w.cenOf x).reader = false ∧ (w.cenOf x).limit = limitCondition f.bank r.g ∧ (w.cenOf x).history = appended.1
      ∧ w.tcuOf x = (resolutionStep x (if appended.2 then some v.capture else none) s).tcuOf x := by
  intro r appended w
  have hstation : u.riu.station = .run := by rwa [h.riu]
  let corrected : State := resolutionStep x (if appended.2 then some v.capture else none)
    (u.onCen x (fun c => { c with reader := false, history := appended.1 }))
  have hcorrect : correctArm x input u
      = ⟨positionBytes r.out v.capture (s.thuOf x).applied.epoch (passFlags s x r), corrected, some r⟩ := by
    rw [correctArm_valid hstation (h.cen ▸ hmap) (by rwa [activeBank_congr h.tbs])]
    change (⟨positionBytes (sampleChain x f v u).out v.capture (u.thuOf x).applied.epoch (passFlags u x (sampleChain x f v u)),
      resolutionStep x (if (appendEntry (u.cenOf x).history (sampleEntry x f v u)).2 then some v.capture else none)
        (u.onCen x (fun c => { c with reader := false, history := (appendEntry (u.cenOf x).history (sampleEntry x f v u)).1 })),
      some (sampleChain x f v u)⟩ : Corrected) = _
    rw [h.sampleChain, h.sampleEntry, h.passFlags, h.applied, h.cen]
  have hw : w = monitorArm x r.t (passLimits x r (numericOnset x r.saturated r.beyond
      (writeReturn (window + windowPosition x) (correctArm x input u).block corrected))) := by
    change armParts x input window u = _
    unfold armParts
    rw [hcorrect]
  have hcen : corrected.cenOf x = { s.cenOf x with reader := false, history := appended.1 } := by
    rw [← h.cen]
    exact (cenOf_resolutionStep _ x).trans (onCen_cenOf u x _)
  obtain ⟨htouches, hhistory, hreader, -, hlimit⟩ := guardParts (x := x)
    (s := writeReturn (window + windowPosition x) (correctArm x input u).block corrected) r
  refine ⟨by rw [hcorrect], ?_, ?_, ?_, ?_⟩
  · rw [hw, hreader]
    exact congrArg CenArm.reader hcen
  · rw [hw]
    exact hlimit f ((congrArg CenArm.inForce hcen).trans hmap)
  · rw [hw, hhistory]
    exact congrArg CenArm.history hcen
  · rw [hw, State.tcuOf, htouches.tcu (by decide)]
    exact tcuOf_resolutionStep_congr (u := u.onCen x (fun c => { c with reader := false, history := appended.1 })) h.tcu h.latchLimit

end

end Sys2Proof.Proofs
end

section
/-! POSITION_BLOCKS (O60): the return pass with its parts in the default order, and the frame that leaves at P1. -/
namespace Sys2Proof.Proofs

open Sys2Proof.Machine Sys2Proof.Laws

section
variable {s t u : State} {x : Arm} {input : Memory 8} {window : Nat} {f : RingFrame} {m : Memory 8}

/-! ### The parts in their default order -/

/-- The four parts of an arm, taken one after the other. -/
theorem takeOwn_arm (c : PassInput) (w : PassWork) :
    takeOwn c (.monitor x) (takeOwn c (.limits x) (takeOwn c (.numeric x) (takeOwn c (.correct x) w)))
      = { w with state := armParts x c.input c.window w.state,
                 chains := w.chains.modify x (fun _ => (correctArm x c.input w.state).chain) } := by
  have hchain (g : Chain → State → State) (v : State) :
      passChain x g { w with state := v, chains := w.chains.modify x (fun _ => (correctArm x c.input w.state).chain) }
        = { w with state := ((correctArm x c.input w.state).chain.map (fun r => g r v)).getD v,
                   chains := w.chains.modify x (fun _ => (correctArm x c.input w.state).chain) } := by
    have hget : (w.chains.modify x (fun _ => (correctArm x c.input w.state).chain)).get x = (correctArm x c.input w.state).chain :=
      get_modify_self ..
    unfold passChain
    rw [hget]
    cases (correctArm x c.input w.state).chain <;> rfl
  refine (congrArg (fun v => passChain x (fun r => monitorArm x r.t) (passChain x (passLimits x) v))
    (hchain (fun r => numericOnset x r.saturated r.beyond) _)).trans ?_
  refine (congrArg (passChain x (fun r => monitorArm x r.t)) (hchain (passLimits x) _)).trans ((hchain _ _).trans ?_)
  unfold armParts
  dsimp only
  cases (correctArm x c.input w.state).chain <;> rfl

@[simp] theorem armParts_touches {bs : List Block} {s u : State} (x : Arm) (input : Memory 8) (window : Nat)
    (hriu : .riu ∈ bs) (hcen : .cen ∈ bs) (htcu : .tcu ∈ bs) (hmgd : .mgd ∈ bs) (hevu : .evu ∈ bs) :
    Touches bs s (armParts x input window u) ↔ Touches bs s u := by
  unfold armParts
  dsimp only
  split <;> simp [hriu, hcen, htcu, hmgd, hevu]

/-- The blocks after the parts of both arms, of the heads, of the rack and of the checks. -/
def readParts (input : Memory 8) (window : Nat) (steps : List RackStep) (s : State) : State :=
  checksPass (rackPass input [] steps (readStatus .b input (readStatus .a input
    (armParts .b input window (armParts .a input window s)))))

theorem touches_readParts (input : Memory 8) (window : Nat) (steps : List RackStep) (s : State) :
    Touches [.riu, .tbs, .cen, .tcu, .pcc, .mgd, .evu] s (readParts input window steps s) := by simp [readParts]

/-- The selection with its event slot written. -/
def selected (window : Nat) (s : State) : State := writeReturn (window + windowEvent) (selectEvent s).1 (selectEvent s).2

theorem takeOwn_thermal (c : PassInput) (w : PassWork) :
    takeOwn c .thermal w = { w with state := thermalPass c.sync c.input w.thermal w.state, thermal := [] } := rfl

theorem takeOwn_readings (c : PassInput) (w : PassWork) :
    takeOwn c .checks (takeOwn c .rack (takeOwn c (.status .b) (takeOwn c (.status .a) w))) = { w with
      state := checksPass (rackPass c.input w.spared w.rack (readStatus .b c.input (readStatus .a c.input w.state))), rack := [] } := rfl

theorem takeOwn_request {c : PassInput} {w : PassWork} (h : w.state.rqu.awaiting = none) : takeOwn c .request w = w := by
  change { w with state := takeAwaiting w.state } = w
  rw [takeAwaiting_quiet h]

theorem takeOwn_select (c : PassInput) (w : PassWork) : (takeOwn c .select w).state = selected c.window w.state := rfl

/-- The parts of a pass in the default order, no request waiting. -/
theorem runParts_default (c : PassInput) (choices : PassChoices) (hidle : s.rqu.awaiting = none) :
    (runParts c [] (passWork choices s)).state = selected c.window (readParts c.input c.window (rackSteps choices.ports)
      (thermalPass c.sync c.input (thermalSteps choices.channels choices.aggregates) s)) := by
  have hwaits (u : State) (hu : Touches [.thu, .mgd, .evu] s u) :
      (readParts c.input c.window (rackSteps choices.ports) u).rqu.awaiting = none := by
    rw [(touches_readParts c.input c.window (rackSteps choices.ports) u).rqu (by decide), hu.rqu (by decide), hidle]
  change (returnParts.foldl (fun w p => takeOwn c p w) (passWork choices s)).state = _
  simp only [returnParts, List.foldl_cons, List.foldl_nil]
  rw [takeOwn_select, takeOwn_thermal, takeOwn_arm, takeOwn_arm, takeOwn_readings, takeOwn_request (hwaits _ (by simp [passWork]))]
  unfold readParts passWork
  dsimp only

/-- A return pass in the default order, no mark of a due step and no request standing. -/
theorem returnPass_default {n : InFlight} {channels aggregates ports : List Nat} (hidle : s.rqu.awaiting = none)
    (hclear : clearDue s = s) :
    returnPass n f f.payload ⟨[], channels, aggregates, ports⟩ s = defaultPass n f channels aggregates ports s := by
  have hstart : passStart n.window f s = openDrain n.window (takeFrame f (refreshRecord (refreshMap .b (refreshMap .a s)))) := by
    unfold passStart
    rw [hclear]
    rfl
  have hwaits : (passStart n.window f s).rqu.awaiting = none := by
    rw [(touches_passStart f s).rqu (by decide)]
    exact hidle
  unfold returnPass
  change finishReturn n.window (runParts ⟨f.payload, n.window, n.sync⟩ [] (passWork _ (passStart n.window f s))).state = _
  rw [runParts_default _ _ hwaits, hstart]
  rfl

end

end Sys2Proof.Proofs
end

section
/-! POSITION_BLOCKS (O60): the frame that a return pass in the default order sends, and what the pass leaves of the arms. -/
namespace Sys2Proof.Proofs

open Sys2Proof.Machine Sys2Proof.Laws

section
variable {s t u : State} {x : Arm} {input : Memory 8} {window : Nat} {f : RingFrame} {m : Memory 8}

/-! ### The line at P1 -/

/-- The frame is to leave at P1 with a payload. -/
def OnLine (f : RingFrame) (m : Memory 8) (s : State) : Prop :=
  s.riu.p1Up = true ∧ s.riu.sent1 = some ⟨{ f with payload := m }, true⟩

theorem OnLine.writeReturn {off : Nat} {bytes : List Byte} (h : OnLine f m s) :
    OnLine f (Memory.writeAll m off bytes) (writeReturn off bytes s) :=
  ⟨h.1, by simp only [Machine.writeReturn, h.2]; rfl⟩

theorem OnLine.of_touches (h : OnLine f m s) (ht : Touches [.rqu, .tbs, .cen, .thu, .tcu, .pcc, .mgd, .evu] s t) : OnLine f m t := by
  unfold OnLine
  rw [ht.riu (by decide)]
  exact h

theorem OnLine.armParts (h : OnLine f m s) :
    OnLine f (Memory.writeAll m (window + windowPosition x) (correctArm x input s).block) (armParts x input window s) := by
  have hwritten : OnLine f (Memory.writeAll m (window + windowPosition x) (correctArm x input s).block)
      (Machine.writeReturn (window + windowPosition x) (correctArm x input s).block (correctArm x input s).state) :=
    (h.of_touches (by simp)).writeReturn
  unfold Machine.armParts
  dsimp only
  split
  · exact hwritten.of_touches (by simp)
  · exact hwritten

/-- The state in which a pass corrects an arm, from the state in which it corrects the first. -/
def beforeArm (x : Arm) (input : Memory 8) (window : Nat) (s : State) : State :=
  match x with
  | .a => s
  | .b => armParts .a input window s

/-- What a pass's parts from the first correction on leave of a payload: each arm's position block at its place, and the bytes
of the point slots. -/
structure BlocksAt (input : Memory 8) (window : Nat) (s : State) (m g : Memory 8) : Prop where
  block  : ∀ x, HoldsAt g (window + windowPosition x) (correctArm x input (beforeArm x input window s)).block
  points : ∀ a, window + 176 ≤ a → Memory.read g a = Memory.read m a

theorem blocksAt_finishReturn {steps : List RackStep} (h : OnLine f m s) (hwf : Memory.wf m = true) :
    ∃ g, (finishReturn window (selected window (readParts input window steps s))).riu.sent1 = some ⟨{ f with payload := g }, true⟩
      ∧ BlocksAt input window s m g := by
  let blockOf (x : Arm) : List Byte := (correctArm x input (beforeArm x input window s)).block
  let blocks : Memory 8 := Memory.writeAll (Memory.writeAll m (window + windowPosition .a) (blockOf .a)) (window + windowPosition .b) (blockOf .b)
  have hlength (x : Arm) : (blockOf x).length = 24 := length_correctArm_block ..
  have hblocks : OnLine f blocks (armParts .b input window (armParts .a input window s)) := h.armParts.armParts
  have hread : OnLine f blocks (readParts input window steps s) := hblocks.of_touches (by simp [readParts])
  obtain ⟨e, hsize, hselected⟩ : ∃ e : List Byte, e.length = 20
      ∧ OnLine f (Memory.writeAll blocks (window + windowEvent) e) (selected window (readParts input window steps s)) :=
    ⟨_, length_selectEvent _, (hread.of_touches (by simp)).writeReturn⟩
  generalize selected window (readParts input window steps s) = v at hselected
  have hreply : OnLine f (Memory.writeAll (Memory.writeAll blocks (window + windowEvent) e) (window + windowReply) (replyBytes v))
      (Machine.writeReturn (window + windowReply) (replyBytes v) v) := hselected.writeReturn
  refine ⟨Memory.writeAll (Memory.writeAll blocks (window + windowEvent) e) (window + windowReply) (replyBytes v), ?_,
    fun x => ?_, fun a ha => ?_⟩
  · unfold finishReturn dropLine1
    exact (congrArg (fun w : State => w.riu.sent1) (if_pos hreply.1)).trans hreply.2
  · have hblock : HoldsAt blocks (window + windowPosition x) (blockOf x) := by
      cases x with
      | a => exact (holdsAt_writeAll hwf).writeAll (.inr (by rw [hlength]; simp only [windowPosition]; omega))
      | b => exact holdsAt_writeAll (wf_writeAll hwf)
    have hplace : 128 ≤ windowPosition x := by cases x <;> decide
    refine (hblock.writeAll (.inl ?_)).writeAll (.inl ?_)
    · rw [hsize, windowEvent]
      omega
    · rw [length_replyBytes, windowReply]
      omega
  · rw [read_writeAll_other, read_writeAll_other, read_writeAll_other, read_writeAll_other]
    · rw [hlength]
      simp only [windowPosition]
      omega
    · rw [hlength]
      simp only [windowPosition]
      omega
    · rw [hsize, windowEvent]
      omega
    · rw [length_replyBytes, windowReply]
      omega

/-! ### What the thermal part leaves of an arm -/

theorem thu_arm_of_touches (h : Touches [.mgd, .evu] s t) : t.thu.arm = s.thu.arm := by rw [h.thu (by decide)]

theorem thu_arm_postChannel (i : Nat) (e : Option ChannelEvent) (s : State) : (postChannel i e s).thu.arm = s.thu.arm :=
  thu_arm_of_touches (by simp)

theorem thu_arm_whenStale (b : Bool) (a : Nat) (s : State) : (whenDo b (staleOnset a) s).thu.arm = s.thu.arm := by
  unfold whenDo
  split
  · exact thu_arm_of_touches (by simp)
  · rfl

theorem thu_arm_takeThermal (sync : BitVec 64) (step : ThermalStep) : (takeThermal sync input step s).thu.arm = s.thu.arm := by
  unfold takeThermal
  split
  · rfl
  · cases step with
    | restart =>
      dsimp only
      unfold restartChannels
      split <;> rfl
    | channel i =>
      dsimp only
      unfold intakeChannel
      dsimp only
      split
      · exact thu_arm_postChannel ..
      · rfl
    | aggregate a => exact thu_arm_whenStale ..

theorem thu_arm_thermalPass (sync : BitVec 64) (steps : List ThermalStep) :
    (thermalPass sync input steps s).thu.arm = s.thu.arm := by
  unfold thermalPass
  induction steps generalizing s with
  | nil => rfl
  | cons step steps ih => exact ih.trans (thu_arm_takeThermal sync step)

theorem SameArm.thermalPass {sync : BitVec 64} {steps : List ThermalStep} : SameArm x s (thermalPass sync input steps s) := by
  have htouches : Touches [.thu, .mgd, .evu] s (Machine.thermalPass sync input steps s) := by simp
  refine ⟨?_, ?_, ?_, htouches.pcc (by decide), htouches.tbs (by decide), ?_⟩
  · rw [State.cenOf, htouches.cen (by decide), State.cenOf]
  · rw [State.tcuOf, htouches.tcu (by decide), State.tcuOf]
  · rw [State.thuOf, thu_arm_thermalPass, State.thuOf]
  · rw [htouches.riu (by decide)]

theorem SameArm.beforeArm : SameArm x s (beforeArm x input window s) := by
  cases x with
  | a => exact .refl ..
  | b => exact armParts_other (x := .a)

/-! ### The causes that stand -/

/-- No hold cause falls. -/
def KeepsCauses (s t : State) : Prop := ∀ x c, hasCause (s.mgdOf x).causes c = true → hasCause (t.mgdOf x).causes c = true

theorem KeepsCauses.refl (s : State) : KeepsCauses s s := fun _ _ => id

theorem KeepsCauses.trans (h : KeepsCauses s t) (h' : KeepsCauses t u) : KeepsCauses s u := fun x c hc => h' x c (h x c hc)

theorem KeepsCauses.of_touches (h : Touches [.riu, .rqu, .tbs, .cen, .thu, .tcu, .pcc, .evu] s t) : KeepsCauses s t := by
  intro x c hc
  rwa [State.mgdOf, h.mgd (by decide)]

theorem KeepsCauses.correctArm : KeepsCauses s (correctArm x input s).state := by
  unfold Machine.correctArm
  split
  · split
    · exact .of_touches (t := resolutionStep x none s) (by simp)
    · split
      · exact Steady.correctInvalid.causes
      · exact .of_touches (t := (correctValid x _ _ s).state) (by simp)
  · exact .refl s

theorem KeepsCauses.armParts : KeepsCauses s (armParts x input window s) := by
  have hwritten : KeepsCauses s (Machine.writeReturn (window + windowPosition x) (Machine.correctArm x input s).block
      (Machine.correctArm x input s).state) := (KeepsCauses.correctArm (x := x) (input := input)).trans (.of_touches (by simp))
  have hlimits (r : Chain) (v : State) : Steady v (passLimits x r v) := by
    unfold passLimits
    split
    · exact .softLimits
    · exact .refl v
  unfold Machine.armParts
  dsimp only
  split
  · exact hwritten.trans (Steady.after .monitorArm (.after (hlimits _ _) .numericOnset)).causes
  · exact hwritten

theorem KeepsCauses.supervise {h : HeadState} {code : BitVec 16} (hu : u.mgd = s.mgd) : KeepsCauses s (supervise x h code u) := by
  have hsteady : Steady u (Machine.supervise x h code u) := by
    unfold Machine.supervise
    dsimp only
    exact .after (.whenDo fun _ => .post) (.after (.whenDo fun _ => .raise) (.onPcc fun _ => ⟨rfl, rfl⟩))
  intro y c hc
  refine hsteady.causes y c ?_
  rwa [State.mgdOf, hu]

theorem KeepsCauses.readStatus : KeepsCauses s (readStatus x input s) := by
  unfold Machine.readStatus
  split
  · exact .refl s
  · dsimp only
    split
    · exact .supervise rfl
    · exact .of_touches (by simp)

/-! ### The arms after the pass -/

/-- What an arm is after its own part of the pass stands to the pass's end; READER is not taken back. -/
theorem arm_finishReturn (steps : List RackStep) (x : Arm) (s : State) :
    let v := armParts x input window (beforeArm x input window s)
    let t := finishReturn window (selected window (readParts input window steps s))
    t.cenOf x = v.cenOf x ∧ t.tcuOf x = v.tcuOf x
      ∧ ∀ c, hasCause (v.mgdOf x).causes c = true → hasCause (t.mgdOf x).causes c = true := by
  intro v t
  let both : State := armParts .b input window (armParts .a input window s)
  have hown : both.cenOf x = v.cenOf x ∧ both.tcuOf x = v.tcuOf x ∧ KeepsCauses v both := by
    cases x with
    | a => exact ⟨(armParts_other (x := .b)).cen, (armParts_other (x := .b)).tcu, .armParts⟩
    | b => exact ⟨rfl, rfl, .refl both⟩
  have hrest : Touches [.riu, .tbs, .pcc, .mgd, .evu] both t :=
    Touches.trans (t := selected window (readParts input window steps s)) (by simp [both, selected, readParts])
      ((touches_finishReturn _).mono (by simp))
  have hcauses : KeepsCauses both t := by
    have hheads : KeepsCauses both (readStatus .b input (readStatus .a input both)) := KeepsCauses.readStatus.trans .readStatus
    have hend : Touches [.riu, .tbs, .pcc, .evu] (readStatus .b input (readStatus .a input both)) t :=
      Touches.trans (t := selected window (readParts input window steps s)) (by simp [both, selected, readParts])
        ((touches_finishReturn _).mono (by simp))
    exact hheads.trans (.of_touches (hend.mono (by simp)))
  refine ⟨?_, ?_, fun c hc => hcauses x c (hown.2.2 x c hc)⟩
  · rw [State.cenOf, hrest.cen (by decide)]
    exact hown.1
  · rw [State.tcuOf, hrest.tcu (by decide)]
    exact hown.2.1

/-! ### The queue and the drain -/

/-- The queue and the drain that is due. -/
def tcuShared (s : State) : List Point × Option Nat := (s.tcu.queue, s.tcu.drainDue)

theorem tcuShared_of_touches (h : Touches [.riu, .rqu, .tbs, .cen, .thu, .pcc, .mgd, .evu] s t) : tcuShared t = tcuShared s := by
  unfold tcuShared
  rw [h.tcu (by decide)]

theorem tcuShared_resolutionStep (c : Option (BitVec 64)) : tcuShared (resolutionStep x c s) = tcuShared s := by
  unfold resolutionStep
  split
  · split_ifs
    · rfl
    · rw [ageLatch_eq]
      rfl
  · rw [ageLatch_eq]
    rfl

theorem tcuShared_correctArm : tcuShared (correctArm x input s).state = tcuShared s := by
  unfold correctArm
  split
  · split
    · exact tcuShared_resolutionStep none
    · split
      · refine (tcuShared_resolutionStep none).trans ?_
        rw [whenDo_post_eq]
        rfl
      · exact (tcuShared_resolutionStep _).trans rfl
  · rfl

theorem tcuShared_armParts : tcuShared (armParts x input window s) = tcuShared s := by
  unfold armParts
  dsimp only
  split
  · exact (tcuShared_of_touches (s := (correctArm x input s).state) (by simp)).trans tcuShared_correctArm
  · exact (tcuShared_of_touches (s := (correctArm x input s).state) (by simp)).trans tcuShared_correctArm

end

end Sys2Proof.Proofs
end

section
/-! POSITION_BLOCKS (O60): from the block that a pass finds to the block its parts work on, and the statement. -/
namespace Sys2Proof.Proofs

open Sys2Proof.Machine Sys2Proof.Laws

section
variable {s t u : State} {x : Arm} {window : Nat} {f : RingFrame} {m : Memory 8}

/-! ### A position block's bytes -/

/-- A coordinate that four bytes hold. -/
def Fits32 (v : Int) : Prop := -2 ^ 31 ≤ v ∧ v < 2 ^ 31

theorem fits32_outputCoord (mode : Rounding) (v : Int) : Fits32 (outputCoord mode v) := by
  unfold Fits32 outputCoord
  rw [saturate32_eq]
  omega

/-- The fields of a position block where its bytes stand (10.3). -/
theorem position_of_holdsAt {o : Nat} {pos : Vec3} {capture : BitVec 64} {epoch : BitVec 16} {flags : BitVec 6}
    (h : HoldsAt m o (positionBytes pos capture epoch flags)) (hx : Fits32 pos.x) (hy : Fits32 pos.y) (hz : Fits32 pos.z) :
    intAt m o = pos.x ∧ intAt m (o + 4) = pos.y ∧ intAt m (o + 8) = pos.z ∧ Memory.readLE m (o + 12) 8 = capture.toNat
      ∧ Memory.readLE m (o + 20) 2 = epoch.toNat ∧ Memory.readLE m (o + 22) 2 = flags.toNat := by
  have hint {a : Nat} {v : Int} (ha : HoldsAt m a (leBytesInt 4 v)) (hv : Fits32 v) : intAt m a = v :=
    (intAt_of_holdsAt ha).trans (BitVec.toInt_ofInt_eq_self (by decide) hv.1 hv.2)
  simp only [positionBytes, holdsAt_append, List.length_append, length_leBytes, length_leBytesInt, Nat.reduceAdd] at h
  obtain ⟨⟨⟨⟨⟨hposx, hposy⟩, hposz⟩, hcapture⟩, hepoch⟩, hflags⟩ := h
  exact ⟨hint hposx hx, hint hposy hy, hint hposz hz, readLE_bitVec hcapture (by decide), readLE_bitVec hepoch (by decide),
    readLE_bitVec hflags (by decide)⟩

/-- The block of an arm without a position. -/
theorem zeroPosition_of_holdsAt {o : Nat} {capture : BitVec 64} {epoch : BitVec 16} {flags : BitVec 6}
    (h : HoldsAt m o (positionBytes ⟨0, 0, 0⟩ capture epoch flags)) :
    intAt m o = 0 ∧ intAt m (o + 4) = 0 ∧ intAt m (o + 8) = 0 ∧ Memory.readLE m (o + 12) 8 = capture.toNat
      ∧ Memory.readLE m (o + 20) 2 = epoch.toNat ∧ Memory.readLE m (o + 22) 2 = flags.toNat :=
  have hzero : Fits32 0 := ⟨by decide, by decide⟩
  position_of_holdsAt h hzero hzero hzero

/-! ### The start of the pass -/

theorem touches_passStart_quiet (hclear : clearDue s = s) : Touches [.riu, .cen, .tcu] s (passStart window f s) := by
  refine Touches.trans (t := bothArms refreshMap (clearDue s)) ?_ ((touches_passStart f s).mono (by simp))
  rw [hclear]
  simp [bothArms]

theorem cenOf_passStart (x : Arm) : (passStart window f s).cenOf x = { s.cenOf x with
    inForce := (activeBank (.armMap x) s).map (fun b => ⟨b, (s.tbsOf (.armMap x)).generation⟩) } := by
  rw [State.cenOf, (touches_passStart f s).cen (by decide)]
  cases x <;> rfl

theorem tcu_passStart (hclear : clearDue s = s) : (passStart window f s).tcu = { s.tcu with
    drainDue := if (stationRecord s).isSome then some window else s.tcu.drainDue } := by
  have hrecord : stationRecord (takeFrame f (refreshRecord (bothArms refreshMap s))) = stationRecord s := rfl
  unfold passStart
  rw [hclear, openDrain, hrecord]
  split <;> rfl

theorem riu_passStart : (passStart window f s).riu = { s.riu with
    record := activeBank .stationRecord s, sent1 := (passStart window f s).riu.sent1 } :=
  (InPass.passStart (window := window) (f := f) (s := s)).riu

theorem recordInForce_passStart (hclear : clearDue s = s) : recordInForce (passStart window f s) = stationRecord s := by
  have hrecord : (passStart window f s).riu.record = activeBank .stationRecord s := congrArg Riu.record riu_passStart
  have hactive : activeBank .stationRecord (passStart window f s) = activeBank .stationRecord s :=
    activeBank_congr ((touches_passStart_quiet hclear).tbs (by decide))
  unfold recordInForce stationRecord
  rw [hrecord, hactive]
  cases activeBank .stationRecord s <;> rfl

/-- The payload that the pass's parts write into: the point slots empty with a STATION RECORD active, the frame's without. -/
theorem onLine_passStart (hup : s.riu.p1Up = true) (hwf : Memory.wf f.payload = true) : ∃ m, OnLine f m (passStart window f s)
    ∧ Memory.wf m = true ∧ (activeBank .stationRecord s = none → m = f.payload)
    ∧ (activeBank .stationRecord s ≠ none → ∀ i < 2, HoldsAt m (window + 176 + 32 * i) emptyPointBytes) := by
  let taken : State := takeFrame f (refreshRecord (bothArms refreshMap (clearDue s)))
  have htaken : OnLine f f.payload taken := ⟨hup, rfl⟩
  have hrecord : (stationRecord taken).isSome = (activeBank .stationRecord s).isSome := Option.isSome_map
  change ∃ m, OnLine f m (openDrain window taken) ∧ _
  unfold openDrain
  rw [hrecord]
  cases activeBank .stationRecord s with
  | none => exact ⟨_, htaken, hwf, fun _ => rfl, fun h => absurd rfl h⟩
  | some b =>
    refine ⟨_, (htaken.writeReturn (off := window + windowPoint 1) (bytes := emptyPointBytes)).writeReturn (off := window + windowPoint 0)
      (bytes := emptyPointBytes), wf_writeAll (wf_writeAll hwf), nofun, fun _ i hi => ?_⟩
    interval_cases i
    · exact holdsAt_writeAll (wf_writeAll hwf)
    · refine (holdsAt_writeAll hwf).writeAll (.inl ?_)
      rw [length_emptyPointBytes, windowPoint, windowPoint]

/-! ### What the correction of an arm reads, in the state the pass finds -/

theorem passOffset_filter (former : Option FormerOffset) (s : State) (i : Nat) : passOffset former s i
    = match former.filter (fun k => decide (k.tip = i)) with
      | some k => k.offset
      | none => (tipOf s i).offset := by
  cases former with
  | none => rfl
  | some k =>
    by_cases h : k.tip = i
    · simp [passOffset, Option.filter, h]
    · simp [passOffset, Option.filter, h]

theorem agedTcu_quiet {limit : Nat} {v : TcuArm} (h : v.touchDue = .none) : agedTcu limit v = match v.trigger with
    | .latched l => { v with
        trigger := .latched { l with age := l.age + 1 }, touchDue := if limit ≤ l.age + 1 then .late else .none }
    | _ => v := by
  obtain ⟨trigger, nextSeq, bracketOpen, feature, due⟩ := v
  obtain rfl : due = .none := h
  cases trigger <;> rfl

/-- The tip offset of the frame in flight, as 7.4 and log 23 have it. -/
theorem mountedOffset_eq {n : InFlight} (hflight : s.riu.inFlight = some n) : mountedOffset s x
    = match mountedTip s x with
      | none => ⟨0, 0, 0⟩
      | some i => match (n.former.get x).filter (fun k => decide (k.tip = i)) with
        | some k => k.offset
        | none => (tipOf s i).offset := by
  unfold mountedOffset
  rw [hflight]
  cases mountedTip s x with
  | none => rfl
  | some i => exact passOffset_filter ..

/-- What an arm's correction reads is the same in the block that the pass starts with. -/
theorem sample_passStart {n : InFlight} {bank : ArmInForce} {v : ArmSample} (hclear : clearDue s = s) (hflight : s.riu.inFlight = some n)
    (mode : Rounding) (hmode : mode = match stationRecord s with
      | some r => r.rounding
      | none => .nearestEven) :
    let offset : Vec3 := match mountedTip s x with
      | none => ⟨0, 0, 0⟩
      | some i => match (n.former.get x).filter (fun k => decide (k.tip = i)) with
        | some k => k.offset
        | none => (tipOf s i).offset
    let r := chain bank.bank (s.thuOf x).applied offset mode v.counts
    sampleChain x bank v (passStart window f s) = r
      ∧ passFlags (passStart window f s) x r = passFlags s x r
      ∧ sampleEntry x bank v (passStart window f s)
        = ⟨r.t, v.capture, passFlags s x r, mountedRef s x, bank.generation, (s.thuOf x).applied.epoch⟩ := by
  intro offset r
  have htouches := touches_passStart_quiet (window := window) (f := f) hclear
  have hthu : (passStart window f s).thuOf x = s.thuOf x := by rw [State.thuOf, htouches.thu (by decide), State.thuOf]
  have htip : mountedTip (passStart window f s) x = mountedTip s x := by
    unfold mountedTip findTip tipOf
    rw [htouches.pcc (by decide)]
  have hoffset : mountedOffset (passStart window f s) x = offset := by
    refine (mountedOffset_eq (n := n) ((congrArg Riu.inFlight riu_passStart).trans hflight)).trans ?_
    rw [htip]
    unfold tipOf
    rw [htouches.pcc (by decide)]
    rfl
  have hrounding : roundingMode (passStart window f s) = mode := by
    unfold roundingMode
    rw [recordInForce_passStart hclear]
    exact hmode.symm
  have hchain : sampleChain x bank v (passStart window f s) = r := by
    unfold sampleChain
    rw [hthu, hoffset, hrounding]
  have hflags : passFlags (passStart window f s) x r = passFlags s x r := by
    unfold passFlags
    rw [hthu, htip]
  have href : mountedRef (passStart window f s) x = mountedRef s x := by
    unfold mountedRef tipOf
    rw [htip, htouches.pcc (by decide)]
  refine ⟨hchain, hflags, ?_⟩
  unfold sampleEntry
  rw [hchain, hflags, href, hthu]

end

end Sys2Proof.Proofs
end

section
/-! POSITION_BLOCKS (O60): the statement. -/
namespace Sys2Proof.Proofs

open Sys2Proof.Machine Sys2Proof.Laws

section
variable {s : State} {x : Arm} {window : Nat} {f : RingFrame} {input : Memory 8}

/-- What the pass in the default order leaves of an arm, in the terms of the block that the pass starts with: `u` is the block its
own parts work on. -/
structure ArmPassed (x : Arm) (input : Memory 8) (window : Nat) (s u t : State) (g : Memory 8) : Prop where
  same   : SameArm x s u
  block  : HoldsAt g (window + windowPosition x) (correctArm x input u).block
  cen    : t.cenOf x = (armParts x input window u).cenOf x
  tcu    : t.tcuOf x = (armParts x input window u).tcuOf x
  causes : ∀ c, hasCause ((armParts x input window u).mgdOf x).causes c = true → hasCause (t.mgdOf x).causes c = true

/-- The default pass: the frame it sends, the point slots, the queue, and the arms. -/
theorem passed_defaultPass {n : InFlight} {channels aggregates ports : List Nat} (hclear : clearDue s = s) (hup : s.riu.p1Up = true)
    (hwf : Memory.wf f.payload = true) :
    ∃ g m, (defaultPass n f channels aggregates ports s).riu.sent1 = some ⟨{ f with payload := g }, true⟩
      ∧ (activeBank .stationRecord s = none → m = f.payload)
      ∧ (activeBank .stationRecord s ≠ none → ∀ i < 2, HoldsAt m (n.window + 176 + 32 * i) emptyPointBytes)
      ∧ (∀ a, n.window + 176 ≤ a → Memory.read g a = Memory.read m a)
      ∧ (defaultPass n f channels aggregates ports s).tcu.queue = s.tcu.queue
      ∧ (defaultPass n f channels aggregates ports s).tcu.drainDue
        = (if (stationRecord s).isSome then some n.window else s.tcu.drainDue)
      ∧ ∀ x, ∃ u, ArmPassed x f.payload n.window (passStart n.window f s) u (defaultPass n f channels aggregates ports s) g := by
  let heated : State := thermalPass n.sync f.payload (thermalSteps channels aggregates) (passStart n.window f s)
  have hpass : defaultPass n f channels aggregates ports s
      = finishReturn n.window (selected n.window (readParts f.payload n.window (rackSteps ports) heated)) := by
    have hstart : passStart n.window f s = openDrain n.window (takeFrame f (refreshRecord (refreshMap .b (refreshMap .a s)))) := by
      unfold passStart
      rw [hclear]
      rfl
    simp only [heated, hstart]
    rfl
  obtain ⟨m, hline, hm, hnone, hsome⟩ := onLine_passStart (window := n.window) hup hwf
  obtain ⟨g, hsent, hblocks⟩ := blocksAt_finishReturn (input := f.payload) (window := n.window) (steps := rackSteps ports)
    (s := heated) (hline.of_touches (by simp [heated])) hm
  have hshared : tcuShared (finishReturn n.window (selected n.window (readParts f.payload n.window (rackSteps ports) heated)))
      = tcuShared (passStart n.window f s) := by
    have hrest : Touches [.riu, .tbs, .pcc, .mgd, .evu] (armParts .b f.payload n.window (armParts .a f.payload n.window heated))
        (finishReturn n.window (selected n.window (readParts f.payload n.window (rackSteps ports) heated))) :=
      Touches.trans (t := selected n.window (readParts f.payload n.window (rackSteps ports) heated)) (by simp [selected, readParts])
        ((touches_finishReturn _).mono (by simp))
    refine (tcuShared_of_touches (hrest.mono (by simp))).trans (tcuShared_armParts.trans (tcuShared_armParts.trans ?_))
    exact tcuShared_of_touches (by simp [heated])
  have htcu := tcu_passStart (window := n.window) (f := f) hclear
  rw [hpass]
  refine ⟨g, m, hsent, hnone, hsome, hblocks.points, ?_, ?_, fun x => ⟨beforeArm x f.payload n.window heated, ?_⟩⟩
  · exact (congrArg Prod.fst hshared).trans (by rw [tcuShared, htcu])
  · exact (congrArg Prod.snd hshared).trans (by rw [tcuShared, htcu])
  · obtain ⟨hcen, harm, hcauses⟩ := arm_finishReturn (input := f.payload) (window := n.window) (rackSteps ports) x heated
    exact ⟨SameArm.thermalPass.trans .beforeArm, hblocks.block x, hcen, harm, hcauses⟩

/-! ### The arms, by what their sample slots hold -/

theorem station_passStart : (passStart window f s).riu.station = s.riu.station :=
  (congrArg Riu.station riu_passStart).trans rfl

theorem thuOf_passStart (hclear : clearDue s = s) : (passStart window f s).thuOf x = s.thuOf x := by
  rw [State.thuOf, (touches_passStart_quiet hclear).thu (by decide), State.thuOf]

theorem tcuOf_passStart (hclear : clearDue s = s) : (passStart window f s).tcuOf x = s.tcuOf x := by
  rw [State.tcuOf, tcu_passStart hclear, State.tcuOf]

theorem latchLimit_passStart (hclear : clearDue s = s) :
    stationField (·.latchLimit) (passStart window f s) = activeField (·.latchLimit) s := by
  unfold stationField activeField
  rw [recordInForce_passStart hclear]

theorem slotMap_passStart (hclear : clearDue s = s) : activeBank .slotMap (passStart window f s) = activeBank .slotMap s :=
  activeBank_congr ((touches_passStart_quiet hclear).tbs (by decide))

variable {t u : State} {g : Memory 8} {map : Bank}

theorem inForce_passStart_map (hmap : activeBank (.armMap x) s = some map) :
    ((passStart window f s).cenOf x).inForce = some ⟨map, (s.tbsOf (.armMap x)).generation⟩ := by
  rw [inForce_passStart, hmap]
  rfl

/-- The off form, outside RUN and without an ARM MAP. -/
theorem ArmPassed.off (h : ArmPassed x input window (passStart window f s) u t g) (hclear : clearDue s = s)
    (hservice : s.riu.station ≠ .unaddressed) (hoff : s.riu.station = .config ∨ activeBank (.armMap x) s = none) :
    HoldsAt g (window + windowPosition x) (positionBytes ⟨0, 0, 0⟩ 0 (s.thuOf x).applied.epoch 0)
      ∧ (t.cenOf x).history = (s.cenOf x).history ∧ (t.cenOf x).reader = (s.cenOf x).reader
      ∧ t.tcuOf x = if s.riu.station = .config then s.tcuOf x else agedTcu (activeField (·.latchLimit) s) (s.tcuOf x) := by
  have hblock := h.block
  rw [h.cen, h.tcu]
  by_cases hconfig : s.riu.station = .config
  · obtain ⟨hbytes, hcen, htcu⟩ := armParts_off (input := input) (window := window) h.same
      (by rw [station_passStart, hconfig]; decide)
    rw [hbytes, thuOf_passStart hclear] at hblock
    rw [hcen, htcu, if_pos hconfig, cenOf_passStart, tcuOf_passStart hclear]
    exact ⟨hblock, rfl, rfl, rfl⟩
  · have hrun : (passStart window f s).riu.station = .run := by
      rw [station_passStart]
      cases hst : s.riu.station with
      | unaddressed => exact absurd hst hservice
      | config => exact absurd hst hconfig
      | run => rfl
    have hmap : ((passStart window f s).cenOf x).inForce = none := by
      rw [inForce_passStart, hoff.resolve_left hconfig]
      rfl
    obtain ⟨hbytes, hcen, htcu⟩ := armParts_unmapped (input := input) (window := window) h.same hrun hmap
    rw [hbytes, thuOf_passStart hclear] at hblock
    rw [hcen, htcu, if_neg hconfig, cenOf_passStart, tcuOf_passStart hclear, latchLimit_passStart hclear]
    exact ⟨hblock, rfl, rfl, rfl⟩

/-- A pass with an invalid sample. -/
theorem ArmPassed.invalid {r : ReaderReason} {capture : BitVec 64} (h : ArmPassed x input window (passStart window f s) u t g)
    (hclear : clearDue s = s) (hrun : s.riu.station = .run) (hmap : activeBank (.armMap x) s = some map)
    (hsample : readSample (activeBank .slotMap s) input x = .invalid r capture) :
    HoldsAt g (window + windowPosition x) (positionBytes ⟨0, 0, 0⟩ capture (s.thuOf x).applied.epoch 0)
      ∧ (t.cenOf x).history = (s.cenOf x).history ∧ (t.cenOf x).reader = true
      ∧ hasCause (t.mgdOf x).causes .reader = true ∧ t.tcuOf x = agedTcu (activeField (·.latchLimit) s) (s.tcuOf x) := by
  obtain ⟨hbytes, hcen, htcu, hcause⟩ := armParts_invalid (input := input) (window := window) h.same (station_passStart.trans hrun)
    (inForce_passStart_map hmap) (by rwa [slotMap_passStart hclear])
  have hblock := h.block
  rw [hbytes, thuOf_passStart hclear] at hblock
  rw [h.cen, h.tcu, hcen, htcu, cenOf_passStart, tcuOf_passStart hclear, latchLimit_passStart hclear]
  exact ⟨hblock, rfl, rfl, h.causes _ hcause, rfl⟩

/-- A trigger whose latch the new history entry does not resolve. -/
theorem tcuOf_resolutionStep_unresolved {history : List HistoryEntry} {e : HistoryEntry}
    (h : ¬ IsNewer history e ∨ ∀ l, triggerOf s x = .latched l → (e.capture.toNat : Int) < l.contact) :
    (resolutionStep x (if (appendEntry history e).2 then some e.capture else none) s).tcuOf x
      = agedTcu (stationField (·.latchLimit) s) (s.tcuOf x) := by
  have haged : (ageLatch x s).tcuOf x = agedTcu (stationField (·.latchLimit) s) (s.tcuOf x) := by rw [ageLatch_eq, onTcu_tcuOf]
  by_cases hn : IsNewer history e
  · rw [appendEntry_newer hn, if_pos rfl, resolutionStep_ages (h.resolve_left (not_not.mpr hn)), haged]
  · rw [appendEntry_older hn, if_neg Bool.false_ne_true, resolutionStep_none, haged]

/-- A pass with a valid sample, of chain `r` and history entry `e`. -/
theorem ArmPassed.valid {v : ArmSample} (h : ArmPassed x input window (passStart window f s) u t g)
    (hclear : clearDue s = s) (hrun : s.riu.station = .run) (hmap : activeBank (.armMap x) s = some map)
    (hsample : readSample (activeBank .slotMap s) input x = .valid v) {r : Chain} {e : HistoryEntry}
    (hr : sampleChain x ⟨map, (s.tbsOf (.armMap x)).generation⟩ v (passStart window f s) = r)
    (hflags : passFlags (passStart window f s) x r = passFlags s x r)
    (he : sampleEntry x ⟨map, (s.tbsOf (.armMap x)).generation⟩ v (passStart window f s) = e) :
    HoldsAt g (window + windowPosition x) (positionBytes r.out v.capture (s.thuOf x).applied.epoch (passFlags s x r))
      ∧ (t.cenOf x).reader = false ∧ (t.cenOf x).limit = limitCondition map r.g
      ∧ (t.cenOf x).history = (appendEntry (s.cenOf x).history e).1
      ∧ (∀ l, triggerOf s x = .latched l → IsNewer (s.cenOf x).history e → l.contact ≤ (v.capture.toNat : Int) →
          t.tcuOf x = { s.tcuOf x with touchDue := .resolve })
      ∧ (¬ IsNewer (s.cenOf x).history e ∨ (∀ l, triggerOf s x = .latched l → (v.capture.toNat : Int) < l.contact) →
          t.tcuOf x = agedTcu (activeField (·.latchLimit) s) (s.tcuOf x)) := by
  have hcapture : v.capture = e.capture := by
    rw [← he]
    rfl
  have htrigger : triggerOf (passStart window f s) x = triggerOf s x := congrArg TcuArm.trigger (tcuOf_passStart hclear)
  obtain ⟨hbytes, hreader, hlimit, hhistory, htcu⟩ := armParts_valid (input := input) (window := window) h.same
    (station_passStart.trans hrun) (inForce_passStart_map hmap) (by rwa [slotMap_passStart hclear])
  rw [hr] at hbytes hlimit
  rw [he] at hhistory htcu
  rw [show ((passStart window f s).cenOf x).history = (s.cenOf x).history by rw [cenOf_passStart]] at hhistory htcu
  have hblock := h.block
  rw [hbytes, hflags, thuOf_passStart hclear] at hblock
  rw [h.cen, h.tcu]
  refine ⟨hblock, hreader, hlimit, hhistory, fun l hl hnewer hcontact => ?_, fun hages => ?_⟩
  · rw [htcu, appendEntry_newer hnewer, if_pos rfl, resolutionStep_resolves (htrigger.trans hl) hcontact, onTcu_tcuOf,
      tcuOf_passStart hclear]
  · rw [htcu, hcapture, tcuOf_resolutionStep_unresolved, tcuOf_passStart hclear, latchLimit_passStart hclear]
    rw [htrigger, ← hcapture]
    exact hages

end

end Sys2Proof.Proofs
end

section
/-! POSITION_BLOCKS (O60). -/
namespace Sys2Proof.Proofs

open Sys2Proof.Machine Sys2Proof.Laws

/-- Settles O60: the pass is its parts in the default order; the frame and the arms are read off what each arm's parts leave, and
the onsets, the soft limits, the invalid sample and the sample slot off their own lemmas. -/
theorem positionBlocks : Obligations.PositionBlocks := by
  unfold Obligations.PositionBlocks
  refine ⟨?pass, ?onsets, ?limits, ?reader, ?slot⟩
  case pass =>
    intro s elapsed f channels aggregates ports n hsettled hservice hp1 hup hcycle hwf hflight hnumber hloss mode limit
    have hback := arriveBack_settled (f := f) hsettled
    obtain ⟨hreset, ⟨hawaiting, hquiet, hdrain, -, -⟩, -⟩ := hsettled
    let later : State := { s with riu := laterRiu elapsed s }
    have hclear : clearDue later = later := clearDue_quiet (fun x => ⟨(hquiet x).1, (hquiet x).2.1⟩) hdrain
    have hreturn : returnOf f later = some n := by
      simp [returnOf, later, laterRiu, hflight, hnumber, hservice.2, hloss]
    have hdefault : returnPass n f f.payload ⟨[], channels, aggregates, ports⟩ later = defaultPass n f channels aggregates ports later :=
      returnPass_default hawaiting hclear
    have hexec : exec (.cycleFrameReturn elapsed f ⟨[], channels, aggregates, ports⟩) s
        = .next (defaultPass n f channels aggregates ports later) := by
      rw [← hdefault]
      change execCycleFrameReturn elapsed f _ s = _
      unfold execCycleFrameReturn
      rw [portOpen_p2 hreset hup, hcycle, hback]
      simp only [Bool.and_self, if_true, later, hreturn]
    obtain ⟨g, m, hsent, hnone, hsome, hpoints, hqueue, hdue, harms⟩ := passed_defaultPass (s := later) (n := n) (f := f)
      (channels := channels) (aggregates := aggregates) (ports := ports) hclear hp1 hwf
    refine ⟨_, { f with payload := g }, hexec, hsent, rfl, ?slots, hqueue, fun x => ?arm⟩
    case slots =>
      have hrecord : (stationRecord later).isSome = (activeBank .stationRecord s).isSome := Option.isSome_map
      rw [hrecord] at hdue
      split_ifs with hactive
      · rw [hactive] at hdue
        refine ⟨hdue.trans hdrain, fun a ha _ => ?_⟩
        rw [hpoints a ha, hnone hactive]
      · rw [Option.isSome_iff_ne_none.mpr hactive] at hdue
        refine ⟨hdue, fun i hi => ?_⟩
        have hempty : HoldsAt g (n.window + 176 + 32 * i) emptyPointBytes := by
          have hheld := hsome hactive i hi
          rw [holdsAt_iff] at hheld ⊢
          intro k hk
          rw [hpoints _ (by omega), hheld k hk]
        exact bytesAt_of_holdsAt hempty
    case arm =>
      intro applied sample o block aged
      obtain ⟨u, hx⟩ := harms x
      have haged : agedTcu (activeField (·.latchLimit) s) (s.tcuOf x) = aged := (agedTcu_quiet (hquiet x).1).trans rfl
      refine ⟨fun hoff => ?off, fun map r capture hrun hmap hsample => ?invalid, fun map v hrun hmap hsample => ?valid⟩
      case off =>
        obtain ⟨hbytes, hhistory, hreader, htcu⟩ := hx.off hclear hservice.2 hoff
        exact ⟨zeroPosition_of_holdsAt hbytes, hhistory, hreader, haged ▸ htcu⟩
      case invalid =>
        obtain ⟨hbytes, hhistory, hreader, hcause, htcu⟩ := hx.invalid hclear hrun hmap hsample
        exact ⟨zeroPosition_of_holdsAt hbytes, hhistory, hreader, hcause, htcu.trans haged⟩
      case valid =>
        intro offset r flags entry kept newer
        obtain ⟨hchain, hflags, hentry⟩ := sample_passStart (s := later) (window := n.window) (f := f) (x := x) (n := n) (v := v)
          (bank := ⟨map, (s.tbsOf (.armMap x)).generation⟩) hclear hflight mode rfl
        obtain ⟨hbytes, hreader, hlimit, hhistory, hresolves, hages⟩ := hx.valid hclear hrun hmap hsample hchain hflags hentry
        refine ⟨position_of_holdsAt hbytes (fits32_outputCoord mode r.t.x) (fits32_outputCoord mode r.t.y)
          (fits32_outputCoord mode r.t.z), hreader, hlimit, hhistory.trans ?_, fun l hl hn hc => hresolves l hl hn hc,
          fun h => (hages h).trans haged⟩
        by_cases hn : newer
        · rw [if_pos hn]
          exact congrArg Prod.fst (appendEntry_newer hn)
        · rw [if_neg hn]
          exact congrArg Prod.fst (appendEntry_older hn)
  case onsets =>
    intro s x sat beyond t c onSat onBeyond
    let noted : State := whenDo onSat (raiseMasked x .numeric .numeric) s
    let raised : State := whenDo onBeyond (raiseMasked x .mapRange .mapRange) noted
    have ht : t = _ := numericOnset_eq sat beyond
    have hmgd (y : Arm) : t.mgdOf y = raised.mgdOf y :=
      (congrArg (fun v : State => v.mgd.arm.get y) ht).trans rfl
    obtain ⟨hfirst, hfirstArm, hfirstOther⟩ := whenDo_raiseMasked_frame (s := s) (x := x) (c := onSat) (m := .numeric) (k := .numeric)
    obtain ⟨hlast, hlastArm, hlastOther⟩ :=
      whenDo_raiseMasked_frame (s := noted) (x := x) (c := onBeyond) (m := .mapRange) (k := .mapRange)
    refine ⟨?_, ?_, fun k => ?_, ?_, ?_, ?_, ?_⟩
    · rw [ht]
      exact get_modify_self ..
    · rw [ht]
      rfl
    · have hmask : MaskHas noted x 1 ↔ MaskHas s x 1 := by
        rw [show noted = _ from whenDo_raiseMasked_eq onSat .numeric .numeric]
        rfl
      rw [hmgd, hasCause_whenDo_raiseMasked, hasCause_whenDo_raiseMasked, or_assoc]
      exact or_congr_right (or_congr_right (and_congr_right fun _ => and_congr_right fun _ => hmask))
    · rw [hmgd, hlastArm, hfirstArm]
    · rw [ht]
      exact get_modify_otherArm ..
    · rw [hmgd, hlastOther, hfirstOther]
    · have hguard : t.mgd = { s.mgd with arm := t.mgd.arm } := by
        rw [ht]
        exact hlast.trans (by rw [hfirst])
      rw [← hguard, ht]
  case limits =>
    intro s x b g t now onset low high
    have hnow : now = limitCondition b g := limit_softLimits b g
    obtain ⟨h0, h1, h2, h3, h4, h5⟩ := limitCondition_bits b g
    rw [← hnow] at h0 h1 h2 h3 h4 h5
    refine ⟨h0, h1, h2, h3, h4, h5, hnow, fun hquiet => ?_, fun honset => ?_⟩
    · rw [hnow]
      exact softLimits_quiet (hnow ▸ hquiet)
    · rw [hnow]
      exact softLimits_onset (hnow ▸ honset)
  case reader =>
    intro s x r capture held
    unfold correctInvalid whenDo
    dsimp only
    cases (s.cenOf x).reader <;> rfl
  case slot =>
    intro s p x sample which
    have hwhich : which = slotWhich (.armSample x) := by cases x <;> rfl
    refine ⟨fun hnone => readSample_unplaced ?_, fun off hat => ?_⟩
    · rw [Option.eq_none_iff_forall_ne_some]
      intro off hoff
      exact hnone off (hwhich ▸ (slotPlace_eq_some (n := .armSample x) trivial).1 hoff)
    · intro status capture
      have hread : sample = _ := readSample_placed ((slotPlace_eq_some (n := .armSample x) trivial).2 (hwhich ▸ hat))
      refine ⟨fun hm => hread.trans (if_neg hm), fun hm h0 => ?_, fun hm h2 => ?_, fun hm h0 h2 => ?_⟩
      · have h2 : ¬ Memory.read p (off + 1) = 2 := by
          rw [show Memory.read p (off + 1) = 0 from h0]
          decide
        exact hread.trans ((if_pos hm).trans ((if_neg h2).trans (if_pos h0)))
      · exact hread.trans ((if_pos hm).trans (if_pos h2))
      · exact hread.trans ((if_pos hm).trans ((if_neg h2).trans (if_neg h0)))

end Sys2Proof.Proofs
end

section
/-! The words of the status pages (10.5): the fields of a word, and of the pages' packed words. -/
namespace Sys2Proof.Proofs

open Sys2Proof.Machine Sys2Proof.Laws

/-! ### The fields of a word -/

section
variable {v a b c i k n : Nat}

theorem extractLsb'_word (h : i + n ≤ 32) : (word v).extractLsb' i n = BitVec.ofNat n (v / 2 ^ i) := by
  refine BitVec.eq_of_getLsbD_eq (fun k hk => ?_)
  rw [word, BitVec.getLsbD_extractLsb', BitVec.getLsbD_ofNat, BitVec.getLsbD_ofNat, Nat.testBit_div_two_pow,
    decide_eq_true (show i + k < 32 by omega), Bool.true_and, Nat.add_comm k i]

theorem getLsbD_word (h : k < 32) : (word v).getLsbD k = v.testBit k := by
  rw [word, BitVec.getLsbD_ofNat, decide_eq_true h, Bool.true_and]

/-- A field that stands above a lower one. -/
theorem testBit_above (h : a < 2 ^ i) : (a + 2 ^ i * b).testBit (i + k) = b.testBit k := by
  rw [Nat.add_comm, Nat.testBit_two_pow_mul_add b h, if_neg (by omega), Nat.add_sub_cancel_left]

theorem ofNat_toNat_add {w : Nat} (x : BitVec w) (b : Nat) : BitVec.ofNat w (x.toNat + 2 ^ w * b) = x := by
  refine BitVec.eq_of_toNat_eq ?_
  rw [BitVec.toNat_ofNat, Nat.add_mul_mod_self_left, Nat.mod_eq_of_lt x.isLt]

/-- The four bytes of a packed word. -/
theorem byteAt_packBytes (b0 b1 b2 b3 : Nat) : byteAt (packBytes b0 b1 b2 b3) 0 = byteOf b0 ∧ byteAt (packBytes b0 b1 b2 b3) 1 = byteOf b1
    ∧ byteAt (packBytes b0 b1 b2 b3) 2 = byteOf b2 ∧ byteAt (packBytes b0 b1 b2 b3) 3 = byteOf b3 := by
  unfold packBytes
  refine ⟨?_, ?_, ?_, ?_⟩ <;>
  · refine (extractLsb'_word (by decide)).trans (BitVec.eq_of_toNat_eq ?_)
    rw [BitVec.toNat_ofNat, BitVec.toNat_ofNat]
    omega

/-- The bits of the fourth byte of a packed word. -/
theorem getLsbD_packBytes (b0 b1 b2 : Nat) {b3 : Nat} (h : k < 8) : (packBytes b0 b1 b2 b3).getLsbD (24 + k) = b3.testBit k := by
  unfold packBytes
  rw [getLsbD_word (by omega)]
  rw [show b0 % 256 + 256 * (b1 % 256) + 65536 * (b2 % 256) + 16777216 * (b3 % 256)
    = (b0 % 256 + 256 * (b1 % 256) + 65536 * (b2 % 256)) + 2 ^ 24 * (b3 % 2 ^ 8) by rfl, testBit_above (by omega), Nat.testBit_mod_two_pow,
    decide_eq_true h, Bool.true_and]

theorem bits_packBytes (b0 b1 b2 : Nat) (bs : List Bool) (h : k < 8) :
    (packBytes b0 b1 b2 (bitsNat bs)).getLsbD (24 + k) = bs.getD k false := by rw [getLsbD_packBytes _ _ _ h, testBit_bitsNat]

/-! ### Strings of words -/

theorem toNat_word : (word v).toNat = v % 2 ^ 32 := BitVec.toNat_ofNat ..

/-- Two words hold a number of 64 bits. -/
theorem toNat_twoWords (h : v < 2 ^ 64) : (word v).toNat + 2 ^ 32 * (word (v / 2 ^ 32)).toNat = v := by
  rw [toNat_word, toNat_word]
  omega

/-- Four words hold a number of 128 bits. -/
theorem toNat_fourWords (h : v < 2 ^ 128) : (word v).toNat + 2 ^ 32 * ((word (v / 2 ^ 32)).toNat
    + 2 ^ 32 * ((word (v / 2 ^ 32 / 2 ^ 32)).toNat + 2 ^ 32 * (word (v / 2 ^ 32 / 2 ^ 32 / 2 ^ 32)).toNat)) = v := by
  rw [toNat_word, toNat_word, toNat_word, toNat_word]
  omega

/-- The three signed fields of a packed origin. -/
theorem fields_originString (o : Vec3) : originString o < 2 ^ 128 ∧ BitVec.ofNat 40 (originString o) = BitVec.ofInt 40 o.x
    ∧ BitVec.ofNat 40 (originString o / 2 ^ 40) = BitVec.ofInt 40 o.y ∧ BitVec.ofNat 40 (originString o / 2 ^ 80) = BitVec.ofInt 40 o.z := by
  have hx := (BitVec.ofInt 40 o.x).isLt
  have hy := (BitVec.ofInt 40 o.y).isLt
  have hz := (BitVec.ofInt 40 o.z).isLt
  unfold originString bits40
  refine ⟨by omega, ?_, ?_, ?_⟩
  all_goals
    refine BitVec.eq_of_toNat_eq ?_
    rw [BitVec.toNat_ofNat]
    omega

theorem optWord_eq (o : Option Nat) : optWord o = wordOr o := by cases o <;> rfl

/-! ### Temperatures -/

theorem tempNat_lt (t : Temperature) : tempNat t < 2 ^ 26 := by
  have hvalue := (BitVec.ofInt 24 t.value).isLt
  have hmarks : bitsNat [t.stale, t.clamp] < 4 := by cases t.stale <;> cases t.clamp <;> decide
  unfold tempNat
  omega

/-- A temperature's word shows it, whatever stands above its marks. -/
theorem showsTemp_word (t : Temperature) (b : Nat) : ShowsTemp (word (tempNat t + 2 ^ 26 * b)) t := by
  have hvalue := (BitVec.ofInt 24 t.value).isLt
  have hsplit : tempNat t + 2 ^ 26 * b = (BitVec.ofInt 24 t.value).toNat + 2 ^ 24 * (bitsNat [t.stale, t.clamp] + 2 ^ 2 * b) := by
    unfold tempNat
    omega
  have hmark (k : Nat) (hk : k < 2) : (bitsNat [t.stale, t.clamp] + 2 ^ 2 * b).testBit k = [t.stale, t.clamp].getD k false := by
    have hmarks : bitsNat [t.stale, t.clamp] < 2 ^ 2 := by cases t.stale <;> cases t.clamp <;> decide
    rw [Nat.add_comm, Nat.testBit_two_pow_mul_add b hmarks, if_pos hk, testBit_bitsNat]
  rw [hsplit]
  refine ⟨?_, ?_, ?_⟩
  · rw [extractLsb'_word (by decide), pow_zero, Nat.div_one]
    exact ofNat_toNat_add ..
  · exact (getLsbD_word (by decide)).trans ((testBit_above (k := 0) hvalue).trans (hmark 0 (by decide)))
  · exact (getLsbD_word (by decide)).trans ((testBit_above (k := 1) hvalue).trans (hmark 1 (by decide)))

end

/-! ### Two bits and four bits per entry -/

theorem insideNat_lt (l : List Inside) : insideNat l < 4 ^ l.length := by
  induction l with
  | nil => decide
  | cons e l ih =>
    have hcode : insideCode e < 4 := by cases e <;> decide
    rw [insideNat, List.length_cons, pow_succ]
    omega

theorem insideNat_entry {l : List Inside} {z : Nat} (hz : z < l.length) :
    insideNat l / 2 ^ (2 * z) % 4 = insideCode (l.getD z .unknown) := by
  induction l generalizing z with
  | nil => simp at hz
  | cons e l ih =>
    have hcode : insideCode e < 4 := by cases e <;> decide
    cases z with
    | zero =>
      rw [insideNat, List.getD_cons_zero, Nat.mul_zero, pow_zero]
      omega
    | succ z =>
      have hrest := ih (by simpa using hz)
      rw [List.getD_cons_succ, ← hrest, insideNat, Nat.mul_succ, Nat.pow_add, Nat.mul_comm (2 ^ (2 * z)), ← Nat.div_div_eq_div_mul,
        show (insideCode e + 4 * insideNat l) / 2 ^ 2 = insideNat l by omega]

theorem priorityNat_entry {l : List SourceState} {i : Nat} {q : SourceState} (hl : ∀ q ∈ l, q.priority ≤ 7) (hq : l[i]? = some q) :
    priorityNat l / 2 ^ (4 * i) % 16 = q.priority := by
  induction l generalizing i with
  | nil => simp at hq
  | cons e l ih =>
    have he := hl e List.mem_cons_self
    cases i with
    | zero =>
      obtain rfl : e = q := by simpa using hq
      rw [priorityNat, Nat.mul_zero, pow_zero]
      omega
    | succ i =>
      have hrest := ih (fun q hq => hl q (List.mem_cons_of_mem _ hq)) (by simpa using hq)
      rw [← hrest, priorityNat, Nat.mul_succ, Nat.pow_add, Nat.mul_comm (2 ^ (4 * i)), ← Nat.div_div_eq_div_mul,
        show (e.priority + 16 * priorityNat l) / 2 ^ 4 = priorityNat l by omega]

end Sys2Proof.Proofs
end

section
/-! The pages of STATUS_READ (10.5): their words show the state (O15). -/
namespace Sys2Proof.Proofs

open Sys2Proof.Machine Sys2Proof.Laws

section
variable {s : State} {x : Arm}

/-- Two half words. -/
theorem halves_word (a b : Nat) : (word (a + 65536 * b)).extractLsb' 0 16 = BitVec.ofNat 16 a
    ∧ (a < 65536 → (word (a + 65536 * b)).extractLsb' 16 16 = BitVec.ofNat 16 b) := by
  refine ⟨(extractLsb'_word (by decide)).trans ?_, fun ha => (extractLsb'_word (by decide)).trans ?_⟩
  · refine BitVec.eq_of_toNat_eq ?_
    rw [BitVec.toNat_ofNat, BitVec.toNat_ofNat]
    omega
  · rw [show (a + 65536 * b) / 2 ^ 16 = b by omega]

/-- A half word, a byte and what stands above them. -/
theorem fields_word (a : BitVec 16) (b : Byte) (c : BitVec 6) :
    (word (a.toNat + 65536 * b.toNat + 16777216 * c.toNat)).extractLsb' 0 16 = a
      ∧ byteAt (word (a.toNat + 65536 * b.toNat + 16777216 * c.toNat)) 2 = b
      ∧ (word (a.toNat + 65536 * b.toNat + 16777216 * c.toNat)).extractLsb' 24 6 = c := by
  refine ⟨(extractLsb'_word (by decide)).trans ?_, (extractLsb'_word (by decide)).trans ?_, (extractLsb'_word (by decide)).trans ?_⟩
  all_goals
    refine BitVec.eq_of_toNat_eq ?_
    rw [BitVec.toNat_ofNat]
    omega

theorem stationWords (h : NumbersBounded s) : StationWords s (stationPage s) := by
  obtain ⟨-, hmissed, -⟩ := h
  obtain ⟨h0, h1, h2, -⟩ := byteAt_packBytes (stationCode s.riu.station) ((s.riu.address.map BitVec.toNat).getD 0)
    Config.siliconRevision (bitsNat [s.riu.ringLoss, s.riu.p2Up, s.tcu.workpiece.valid])
  obtain ⟨hbound, hx, hy, hz⟩ := fields_originString s.tcu.workpiece.origin
  constructor
  case bytes =>
    refine ⟨h0.trans ?_, h1.trans ?_, h2⟩
    · cases s.riu.station <;> rfl
    · cases s.riu.address with
      | none => rfl
      | some a => exact BitVec.ofNat_toNat 8 a
  case bits =>
    have hbit (k : Nat) (hk : k < 8) : (wordAt (stationPage s) 0).getLsbD (24 + k)
        = [s.riu.ringLoss, s.riu.p2Up, s.tcu.workpiece.valid].getD k false := bits_packBytes _ _ _ _ hk
    refine ⟨hbit 0 (by decide), hbit 1 (by decide), hbit 2 (by decide), BitVec.eq_of_getLsbD_eq fun k hk => ?_⟩
    rw [BitVec.getLsbD_extractLsb', decide_eq_true hk, Bool.true_and, show 27 + k = 24 + (3 + k) by omega, hbit _ (by omega)]
    simp
  case clock => exact toNat_twoWords s.riu.clockAtAlign.isLt
  case frame =>
    obtain ⟨hlow, -⟩ := halves_word s.riu.frameAtAlign.toNat s.tcu.queue.length
    refine ⟨hlow.trans (BitVec.ofNat_toNat 16 _), (extractLsb'_word (by decide)).trans (BitVec.eq_of_toNat_eq ?_)⟩
    rw [BitVec.toNat_ofNat, BitVec.toNat_ofNat]
    omega
  case counts =>
    obtain ⟨hlow, hhigh⟩ := halves_word s.riu.missed s.riu.turned
    exact ⟨hlow, hhigh (by omega)⟩
  case dead =>
    unfold stationPage
    cases hd : s.riu.deadline with
    | none => exact ⟨nofun, fun _ => ⟨rfl, rfl⟩⟩
    | some d =>
      refine ⟨fun e he => ?_, nofun⟩
      obtain rfl : d = e := by simpa using he
      exact toNat_twoWords d.isLt
  case origin =>
    have hwords : (wordAt (stationPage s) 7).toNat + 2 ^ 32 * ((wordAt (stationPage s) 8).toNat + 2 ^ 32 * ((wordAt (stationPage s) 9).toNat
        + 2 ^ 32 * (wordAt (stationPage s) 10).toNat)) = originString s.tcu.workpiece.origin := by
      unfold stationPage
      cases s.riu.deadline <;> exact toNat_fourWords hbound
    intro v
    rw [show v = _ from hwords]
    exact ⟨hx, hy, hz⟩
  case alpha =>
    unfold stationPage
    cases s.riu.deadline <;> rfl
  case length =>
    unfold stationPage
    cases s.riu.deadline <;> rfl

theorem armWords0 : ArmWords0 s x (armPage0 s x) := by
  obtain ⟨h0, h1, h2, -⟩ := byteAt_packBytes (tipCode (mountedTip s x)) (s.cenOf x).history.length (triggerCode (s.tcuOf x).trigger)
    (bitsNat [(s.cenOf x).satSeen, (s.cenOf x).rangeSeen, (s.cenOf x).reader, triggerDouble (s.tcuOf x).trigger,
      triggerDisarmAfter (s.tcuOf x).trigger, (s.tcuOf x).bracketOpen, (s.thuOf x).deferred])
  have hbit (k : Nat) (hk : k < 8) : (wordAt (armPage0 s x) 0).getLsbD (24 + k) = _ := bits_packBytes _ _ _ _ hk
  have htrigger : triggerOf s x = (s.tcuOf x).trigger := rfl
  have hdouble : triggerDouble (s.tcuOf x).trigger = true ↔ ∃ l, triggerOf s x = .latched l ∧ l.double = true := by
    rw [htrigger]
    cases (s.tcuOf x).trigger <;> simp [triggerDouble]
  have hdisarm : triggerDisarmAfter (s.tcuOf x).trigger = true ↔ ∃ l, triggerOf s x = .latched l ∧ l.disarmAfter = true := by
    rw [htrigger]
    cases (s.tcuOf x).trigger <;> simp [triggerDisarmAfter]
  constructor
  case bytes =>
    refine ⟨h0, h1, h2.trans ?_⟩
    rw [htrigger]
    cases (s.tcuOf x).trigger <;> rfl
  case bits =>
    refine ⟨hbit 0 (by decide), hbit 1 (by decide), hbit 2 (by decide), ?_, ?_, hbit 5 (by decide), hbit 6 (by decide)⟩
    · rw [hbit 3 (by decide)]
      exact hdouble
    · rw [hbit 4 (by decide)]
      exact hdisarm
  case next => exact fields_word ..
  case age =>
    refine (optWord_eq _).trans ?_
    rw [htrigger]
    cases (s.tcuOf x).trigger <;> rfl
  case left => exact optWord_eq _
  case temps =>
    intro i hi t ht
    have hword (t : Temperature) : ShowsTemp (word (tempNat t)) t := showsTemp_word t 0
    interval_cases i <;> obtain rfl := Option.some.inj ht <;> exact hword _
  case epoch => rfl
  case length => rfl

theorem armWords1 : ArmWords1 s x (armPage1 s x) := by
  obtain ⟨h0, h1, h2, h3⟩ := byteAt_packBytes (sessionCode (sessionOf s x).state) (tipCode (sessionOf s x).dropTip)
    (portCode (sessionOf s x).dropPort) (tipCode (sessionOf s x).pickTip)
  obtain ⟨hport, hfault, hhead, hconsistent⟩ := byteAt_packBytes (portCode (sessionOf s x).pickPort) (faultByte (sessionOf s x).fault)
    (((s.pccOf x).headLast.map headCode).getD 255) (if (s.pccOf x).consistent then 0 else 1)
  constructor
  case session =>
    refine ⟨h0.trans ?_, h1, h2, h3, hport⟩
    cases (sessionOf s x).state <;> rfl
  case fault =>
    intro c hc
    refine hfault.trans ?_
    rw [hc]
    cases c <;> rfl
  case head =>
    refine ⟨hhead.trans ?_, hconsistent.trans ?_⟩
    · cases (s.pccOf x).headLast with
      | none => rfl
      | some h => cases h <;> rfl
    · cases (s.pccOf x).consistent <;> rfl
  case timer => exact optWord_eq _
  case code =>
    obtain ⟨hcode, hlatches, -⟩ := fields_word (s.pccOf x).codeLast (s.mgdOf x).latches 0
    refine ⟨hcode, hlatches, (extractLsb'_word (by decide)).trans (BitVec.eq_of_toNat_eq ?_)⟩
    have hhigh := (s.mgdOf x).latches.isLt
    have hlow := (s.pccOf x).codeLast.isLt
    rw [BitVec.toNat_ofNat]
    change _ / 2 ^ 24 % 2 ^ 8 = 0
    omega
  case sets => exact ⟨rfl, rfl⟩
  case length => rfl

theorem channelWords_show (c : Channel) {ws : List Word} {i : Nat} (h0 : wordAt ws i = wordAt (channelWords c) 0)
    (h1 : wordAt ws (i + 1) = wordAt (channelWords c) 1) (h2 : wordAt ws (i + 2) = wordAt (channelWords c) 2) :
    ChannelWords c (wordAt ws i) (wordAt ws (i + 1)) (wordAt ws (i + 2)) := by
  obtain ⟨hstate, hcount, hreason, hseen⟩ := byteAt_packBytes (channelCode c.state) c.count ((c.reason.map rejectCode).getD 0)
    ((c.counter.map BitVec.toNat).getD 255)
  rw [h0, h1, h2]
  constructor
  case state =>
    refine hstate.trans ?_
    cases c.state <;> rfl
  case count => exact hcount
  case reason =>
    refine hreason.trans ?_
    cases c.reason with
    | none => rfl
    | some r => cases r <;> rfl
  case seen =>
    refine hseen.trans ?_
    cases c.counter with
    | none => rfl
    | some v => exact BitVec.ofNat_toNat 8 v
  case value => rfl
  case last => rfl

theorem channelsPage_show {p i : Nat} {c : Channel} (hi : i < 4) (hc : s.thu.channels[4 * p + i]? = some c) :
    ChannelWords c (wordAt (channelsPage s p) (3 * i)) (wordAt (channelsPage s p) (3 * i + 1)) (wordAt (channelsPage s p) (3 * i + 2)) := by
  have hchannel : s.thu.channels.getD (4 * p + i) Channel.reset = c := by rw [List.getD_eq_getElem?_getD, hc, Option.getD_some]
  subst hchannel
  refine channelWords_show _ ?_ ?_ ?_ <;> interval_cases i <;> rfl

theorem aggregatesPage_show {i : Nat} {g : Aggregate} (hg : s.thu.aggregates[i]? = some g) :
    ShowsTemp (wordAt (aggregatesPage s) i) g.temp ∧ (wordAt (aggregatesPage s) i).getLsbD 26 = g.everFresh
      ∧ (wordAt (aggregatesPage s) i).extractLsb' 27 5 = 0 := by
  have hword : wordAt (aggregatesPage s) i = word (tempNat g.temp + 2 ^ 26 * bitsNat [g.everFresh]) := by
    rw [wordAt, aggregatesPage, List.getD_eq_getElem?_getD, List.getElem?_map, hg]
    rfl
  have htemp := tempNat_lt g.temp
  have hfresh : bitsNat [g.everFresh] < 2 := by cases g.everFresh <;> decide
  rw [hword]
  refine ⟨showsTemp_word .., ?_, (extractLsb'_word (by decide)).trans (BitVec.eq_of_toNat_eq ?_)⟩
  · exact (getLsbD_word (by decide)).trans ((testBit_above (k := 0) htemp).trans (testBit_bitsNat _ 0))
  · rw [BitVec.toNat_ofNat]
    change _ / 2 ^ 27 % 2 ^ 5 = 0
    omega

theorem tipWords_show (t : Tip) : TipWords t (tipWords t) := by
  obtain ⟨hpresent, hrevision, hcode, hport⟩ := byteAt_packBytes (bitsNat [t.present]) t.revision.toNat (locationBytes t.location).1
    (locationBytes t.location).2
  obtain ⟨hlow, hhigh⟩ := halves_word t.code.toNat t.airTemp
  constructor
  case offset => exact ⟨rfl, rfl, rfl⟩
  case fields => exact ⟨rfl, rfl⟩
  case code => exact ⟨hlow.trans (BitVec.ofNat_toNat 16 _), hhigh t.code.isLt⟩
  case place =>
    refine ⟨hpresent.trans ?_, hrevision.trans (BitVec.ofNat_toNat 8 _), hcode.trans ?_, fun p hp => hport.trans ?_⟩
    · cases t.present <;> rfl
    · rcases t.location with _ | _ | (_ | _) | _ <;> rfl
    · rw [hp]
      rfl

theorem tipsPage_show (first : Nat) : (tipsPage s first).length = 14 ∧ TipWords (tipOf s first) ((tipsPage s first).take 7)
    ∧ (first ≠ 32 → TipWords (tipOf s (first + 1)) ((tipsPage s first).drop 7))
    ∧ (first = 32 → (tipsPage s first).drop 7 = List.replicate 7 0) := by
  unfold tipsPage
  refine ⟨?_, tipWords_show _, fun h => ?_, fun h => ?_⟩
  · split <;> rfl
  · rw [if_neg h]
    exact tipWords_show _
  · rw [if_pos h]
    rfl

/-- The code of a port's occupancy. -/
def occupancyCode (o : Option (BitVec 12)) (p : Nat) : Nat :=
  match o with
  | some r => if r.getLsbD p then 1 else 0
  | none => 2

theorem portsPage_show {p : Nat} (hp : p < 12) : PortWord s p (wordAt (portsPage s) p) := by
  have hword : wordAt (portsPage s) p = packBytes (portBytes (portOf s p)).1 (portBytes (portOf s p)).2
      (occupancyCode s.pcc.occupancy p) 0 := by
    rw [wordAt, portsPage, List.getD_eq_getElem?_getD, List.getElem?_map, List.getElem?_range hp]
    rfl
  obtain ⟨hstate, htip, hshown, hrest⟩ := byteAt_packBytes (portBytes (portOf s p)).1 (portBytes (portOf s p)).2
      (occupancyCode s.pcc.occupancy p) 0
  rw [hword]
  constructor
  case state =>
    refine hstate.trans ?_
    cases portOf s p <;> rfl
  case tip =>
    refine htip.trans ?_
    cases portOf s p <;> rfl
  case shown =>
    refine hshown.trans ?_
    cases s.pcc.occupancy with
    | none => rfl
    | some r =>
      rw [occupancyCode]
      dsimp only
      cases r.getLsbD p <;> rfl
  case rest => exact hrest

theorem zoneWord_show {z : Nat} {w : Word} (hw : w = zoneWord (zoneOf s z)) : ZoneWord s z w := by
  subst hw
  constructor
  case free =>
    intro h
    rw [h]
    obtain ⟨h0, -, h2, h3⟩ := byteAt_packBytes 0 255 0 255
    exact ⟨h0, h2, h3⟩
  case held =>
    intro h r v hz
    rw [hz]
    obtain ⟨h0, h1, h2, h3⟩ := byteAt_packBytes 1 (armCode h) (bitsNat [r]) (if v then armCode (otherArm h) else 255)
    refine ⟨h0, h1, h2.trans ?_, h3.trans ?_⟩
    · cases r <;> rfl
    · cases v <;> rfl

theorem zonesPage_show (hinside : ∀ x, (s.mgdOf x).inside.length = 8) : (zonesPage s).length = 10
    ∧ (∀ z < 8, ZoneWord s z (wordAt (zonesPage s) z))
    ∧ ∀ x, (wordAt (zonesPage s) (8 + armCode x)).extractLsb' 16 16 = 0 ∧ ∀ z < 8,
        (wordAt (zonesPage s) (8 + armCode x)).extractLsb' (2 * z) 2 = BitVec.ofNat 2 (insideCode (insideOf s x z)) := by
  refine ⟨rfl, fun z hz => zoneWord_show ?_, fun x => ?_⟩
  · interval_cases z <;> rfl
  · have hword : wordAt (zonesPage s) (8 + armCode x) = word (insideNat (s.mgdOf x).inside) := by cases x <;> rfl
    have hbound := insideNat_lt (s.mgdOf x).inside
    rw [hinside x] at hbound
    rw [hword]
    refine ⟨(extractLsb'_word (by decide)).trans ?_, fun z hz => (extractLsb'_word (by omega)).trans (BitVec.eq_of_toNat_eq ?_)⟩
    · rw [Nat.div_eq_of_lt (by omega)]
      rfl
    · have hentry := insideNat_entry (l := (s.mgdOf x).inside) (z := z) (by rw [hinside x]; exact hz)
      have hcode : insideCode (insideOf s x z) < 4 := by cases insideOf s x z <;> decide
      rw [BitVec.toNat_ofNat, BitVec.toNat_ofNat, insideOf]
      change insideCode ((s.mgdOf x).inside.getD z .unknown) < 4 at hcode
      omega

theorem tablesPage_show (k : TableKind) : TablesWords (s.tbsOf k) (tablesPage s k) := by
  have hsize : (resultWords (s.tbsOf k).lastResult).length = 2 := by
    unfold resultWords
    split <;> rfl
  have hcode : stagingCode (s.tbsOf k).state < 256 := by cases (s.tbsOf k).state <;> simp [stagingCode]
  have hactive : bitsNat [(s.tbsOf k).active.isSome] < 256 := by cases (s.tbsOf k).active.isSome <;> decide
  have hgeneration := (s.tbsOf k).generation.isLt
  constructor
  case state =>
    refine ⟨(extractLsb'_word (by decide)).trans ?_, (extractLsb'_word (by decide)).trans ?_, (extractLsb'_word (by decide)).trans ?_⟩
    · have hbyte : BitVec.ofNat 8 ((stagingCode (s.tbsOf k).state + 256 * bitsNat [(s.tbsOf k).active.isSome]
          + 65536 * (s.tbsOf k).generation.toNat) / 2 ^ 0) = byteOf (stagingCode (s.tbsOf k).state) := by
        refine BitVec.eq_of_toNat_eq ?_
        rw [BitVec.toNat_ofNat, BitVec.toNat_ofNat]
        omega
      refine hbyte.trans ?_
      cases (s.tbsOf k).state <;> rfl
    · have hbyte : BitVec.ofNat 8 ((stagingCode (s.tbsOf k).state + 256 * bitsNat [(s.tbsOf k).active.isSome]
          + 65536 * (s.tbsOf k).generation.toNat) / 2 ^ 8) = byteOf (bitsNat [(s.tbsOf k).active.isSome]) := by
        refine BitVec.eq_of_toNat_eq ?_
        rw [BitVec.toNat_ofNat, BitVec.toNat_ofNat]
        omega
      refine hbyte.trans ?_
      cases (s.tbsOf k).active <;> rfl
    · refine BitVec.eq_of_toNat_eq ?_
      rw [BitVec.toNat_ofNat]
      omega
  case left =>
    refine (optWord_eq _).trans ?_
    cases (s.tbsOf k).state <;> rfl
  case result =>
    unfold tablesPage
    cases h : (s.tbsOf k).lastResult with
    | none => simp [h, resultWords, wordAt, absentWord]
    | some r => cases r <;> simp [h, resultWords, wordAt, absentWord, word]
  case length =>
    unfold tablesPage
    simp [hsize]

/-! ### EVENTS -/

theorem bitsNat_lt (bs : List Bool) : bitsNat bs < 2 ^ bs.length := by
  induction bs with
  | nil => decide
  | cons b bs ih =>
    have hbit : (if b then 1 else 0) < 2 := by cases b <;> decide
    rw [bitsNat, List.length_cons, pow_succ]
    omega

theorem sourceOf_eq {n : Nat} {q : SourceState} (h : s.evu.sources[n]? = some q) : sourceOf s n = q := by
  rw [sourceOf, List.getD_eq_getElem?_getD, h, Option.getD_some]

/-- A set of sources as a word: the bit of each, and nothing above. -/
theorem sourceSet_word (f : Nat → Bool) :
    (∀ n < 17, (word (bitsNat ((List.range 17).map f))).getLsbD n = f n)
      ∧ (word (bitsNat ((List.range 17).map f))).extractLsb' 17 15 = 0 := by
  have hbound : bitsNat ((List.range 17).map f) < 2 ^ 17 := by simpa using bitsNat_lt ((List.range 17).map f)
  refine ⟨fun n hn => (getLsbD_word (by omega)).trans ?_, (extractLsb'_word (by decide)).trans ?_⟩
  · rw [testBit_bitsNat, List.getD_eq_getElem?_getD, List.getElem?_map, List.getElem?_range hn]
    rfl
  · rw [Nat.div_eq_of_lt hbound]
    rfl

theorem eventsPage_priorities {j : Nat} (hj : j < 3) (hlen : s.evu.sources.length = 17) (n : Nat) :
    wordAt (eventsPage s n) (3 + j) = word (priorityNat ((s.evu.sources.drop (8 * j)).take 8)) := by
  interval_cases j
  · rfl
  · rfl
  · rw [List.take_of_length_le (by simp [hlen])]
    rfl

theorem eventsPage_show (h : NumbersBounded s) (n : Nat) : EventsWords s n (eventsPage s n) := by
  obtain ⟨-, -, -, -, -, hlen, hpriority, -⟩ := h
  obtain ⟨hpending, hpendingTop⟩ := sourceSet_word (fun m => (sourceOf s m).detail.isSome)
  obtain ⟨hoverrun, hoverrunTop⟩ := sourceSet_word (fun m => (sourceOf s m).overrun)
  constructor
  case level => rfl
  case sources =>
    intro m hm q hq
    have hsource := sourceOf_eq hq
    refine ⟨(hpending m hm).trans (by rw [hsource]), (hoverrun m hm).trans (by rw [hsource]), ?_⟩
    have hentry := priorityNat_entry (l := (s.evu.sources.drop (8 * (m / 8))).take 8) (i := m % 8) (q := q)
      (fun e he => hpriority e (List.mem_of_mem_drop (List.mem_of_mem_take he)))
      (by rw [List.getElem?_take_of_lt (by omega), List.getElem?_drop, Nat.div_add_mod, hq])
    have hq7 := hpriority q (List.mem_of_getElem? hq)
    rw [eventsPage_priorities (by omega) hlen]
    refine (extractLsb'_word (by omega)).trans (BitVec.eq_of_toNat_eq ?_)
    rw [BitVec.toNat_ofNat, BitVec.toNat_ofNat, ← hentry]
    omega
  case unused =>
    refine ⟨hpendingTop, hoverrunTop, ?_⟩
    obtain ⟨q, hq⟩ : ∃ q, s.evu.sources.drop 16 = [q] := List.length_eq_one_iff.mp (by simp [hlen])
    have hq7 := hpriority q (List.mem_of_mem_drop (by rw [hq]; exact List.mem_singleton_self q))
    refine (extractLsb'_word (v := priorityNat (s.evu.sources.drop 16)) (by decide)).trans ?_
    rw [hq, priorityNat, priorityNat, Nat.div_eq_of_lt (by omega)]
    rfl
  case detail =>
    intro q hq
    rw [← sourceOf_eq hq]
    rfl
  case length =>
    unfold eventsPage
    cases (sourceOf s n).detail <;> simp [length_detailWords]

end

end Sys2Proof.Proofs
end

section
/-! STATUS_READ (O15): the pages that are named, and the statement. -/
namespace Sys2Proof.Proofs

open Sys2Proof.Machine Sys2Proof.Laws

section
variable {s : State} {page sel part : Byte}

theorem byte_eq_iff {v : Byte} {n : Nat} (hn : n < 256) : v = BitVec.ofNat 8 n ↔ v.toNat = n := by
  rw [← BitVec.toNat_inj, BitVec.toNat_ofNat, Nat.mod_eq_of_lt hn]

theorem isSome_armOf : (armOf sel).isSome = true ↔ sel.toNat ≤ 1 := by
  have h0 : sel = 0 ↔ sel.toNat = 0 := byte_eq_iff (by decide)
  have h1 : sel = 1 ↔ sel.toNat = 1 := byte_eq_iff (by decide)
  unfold armOf
  split_ifs with ha hb
  · simp [h0.1 ha]
  · simp [h1.1 hb]
  · rw [h0] at ha
    rw [h1] at hb
    simp
    omega

theorem isSome_kindOf : (kindOf sel).isSome = true ↔ 1 ≤ sel.toNat ∧ sel.toNat ≤ 6 := by
  constructor
  · intro h
    by_contra hn
    have hnone : kindOf sel = none := kindOf_eq_none (by rw [show sel = 0 ↔ sel.toNat = 0 from byte_eq_iff (by decide)]; omega)
    rw [hnone] at h
    exact Bool.false_ne_true h
  · rintro ⟨hlow, hhigh⟩
    have hsel : sel = BitVec.ofNat 8 sel.toNat := (byte_eq_iff (by omega)).2 rfl
    generalize sel.toNat = n at hsel hlow hhigh
    subst hsel
    interval_cases n <;> rfl

theorem kindOf_kindByte (k : TableKind) : kindOf (kindByte k) = some k := by rcases k with _ | (_ | _) | _ | _ | _ <;> rfl

/-- The page parts that STATUS_READ names (R161). -/
def Named (page sel part : Byte) : Prop :=
  page = 1 ∨ (page = 2 ∧ sel.toNat ≤ 1 ∧ part.toNat ≤ 1) ∨ (page = 3 ∧ sel.toNat ≤ 6) ∨ (page = 4 ∧ 1 ≤ sel.toNat ∧ sel.toNat ≤ 32)
    ∨ page = 5 ∨ page = 6 ∨ (page = 7 ∧ sel.toNat ≤ 16) ∨ (page = 8 ∧ 1 ≤ sel.toNat ∧ sel.toNat ≤ 6)

/-! The pages, by their codes. -/

theorem statusPage_arm : statusPage s 2 sel part = (armOf sel).bind (fun x =>
    if part = 0 then some (armPage0 s x) else if part = 1 then some (armPage1 s x) else none) := by
  unfold statusPage
  rw [if_neg (by decide), if_pos rfl]
  cases armOf sel <;> rfl

theorem statusPage_channels : statusPage s 3 sel part
    = if sel.toNat < 6 then some (channelsPage s sel.toNat) else if sel.toNat = 6 then some (aggregatesPage s) else none := rfl

theorem statusPage_tips : statusPage s 4 sel part = if 1 ≤ sel.toNat ∧ sel.toNat ≤ 32 then some (tipsPage s sel.toNat) else none := rfl

theorem statusPage_events : statusPage s 7 sel part = if sel.toNat ≤ 16 then some (eventsPage s sel.toNat) else none := rfl

theorem statusPage_tables : statusPage s 8 sel part = (kindOf sel).map (tablesPage s) := rfl

/-- A page outside the codes. -/
theorem statusPage_unknown (h : ¬ (page = 1 ∨ page = 2 ∨ page = 3 ∨ page = 4 ∨ page = 5 ∨ page = 6 ∨ page = 7 ∨ page = 8)) :
    statusPage s page sel part = none ∧ ¬ Named page sel part := by
  simp only [not_or] at h
  obtain ⟨h1, h2, h3, h4, h5, h6, h7, h8⟩ := h
  constructor
  · simp only [statusPage, if_neg h1, if_neg h2, if_neg h3, if_neg h4, if_neg h5, if_neg h6, if_neg h7, if_neg h8]
  · simp only [Named, h1, h2, h3, h4, h5, h6, h7, h8, false_and, or_false, not_false_eq_true]

theorem isSome_statusPage : (statusPage s page sel part).isSome = true ↔ Named page sel part := by
  by_cases hpage : page = 1 ∨ page = 2 ∨ page = 3 ∨ page = 4 ∨ page = 5 ∨ page = 6 ∨ page = 7 ∨ page = 8
  case neg =>
    obtain ⟨hnone, hnot⟩ := statusPage_unknown (s := s) (sel := sel) (part := part) hpage
    exact iff_of_false (by simp [hnone]) hnot
  rcases hpage with rfl | rfl | rfl | rfl | rfl | rfl | rfl | rfl
  · exact iff_of_true rfl (.inl rfl)
  · have hpart : part = 0 ∨ part = 1 ↔ part.toNat ≤ 1 := by
      rw [show part = 0 ↔ part.toNat = 0 from byte_eq_iff (by decide), show part = 1 ↔ part.toNat = 1 from byte_eq_iff (by decide)]
      omega
    rw [show Named 2 sel part ↔ sel.toNat ≤ 1 ∧ part.toNat ≤ 1 by simp [Named], ← isSome_armOf, ← hpart, statusPage_arm]
    cases armOf sel with
    | none => simp
    | some x =>
      refine Iff.trans ?_ (and_iff_right rfl).symm
      rw [Option.bind_some]
      split_ifs with h0 h1
      · exact iff_of_true rfl (.inl h0)
      · exact iff_of_true rfl (.inr h1)
      · exact iff_of_false Bool.false_ne_true (not_or.2 ⟨h0, h1⟩)
  · rw [show Named 3 sel part ↔ sel.toNat ≤ 6 by simp [Named], statusPage_channels]
    split_ifs <;> simp <;> omega
  · rw [show Named 4 sel part ↔ 1 ≤ sel.toNat ∧ sel.toNat ≤ 32 by simp [Named], statusPage_tips]
    split_ifs with h <;> simp [h]
  · exact iff_of_true rfl (by simp [Named])
  · exact iff_of_true rfl (by simp [Named])
  · rw [show Named 7 sel part ↔ sel.toNat ≤ 16 by simp [Named], statusPage_events]
    split_ifs with h <;> simp [h]
  · rw [show Named 8 sel part ↔ 1 ≤ sel.toNat ∧ sel.toNat ≤ 6 by simp [Named], statusPage_tables, Option.isSome_map, isSome_kindOf]

theorem exec_statusRead_some {ws : List Word} (h : InService s) (hws : statusPage s page sel part = some ws) :
    exec (.statusRead page sel part) s = .next (withReply 0x03 ⟨.done, ws⟩ s) :=
  exec_request (c := .statusRead) rfl h rfl (by rw [ownStatusRead, hws])

theorem exec_statusRead_none (h : InService s) (hws : statusPage s page sel part = none) :
    exec (.statusRead page sel part) s = .next (withReply 0x03 ⟨.badParam, []⟩ s) :=
  exec_request (c := .statusRead) rfl h rfl (by rw [ownStatusRead, hws]; rfl)

end

/-- Settles O15: the parts that are named, and each page's words as its own lemma gives them. -/
theorem statusReadShowsState : Obligations.StatusReadShowsState := by
  unfold Obligations.StatusReadShowsState
  intro s hservice hbounded shows
  have hshows {page sel part : Byte} {ws : List Word} {P : List Word → Prop} (hws : statusPage s page sel part = some ws) (hP : P ws) :
      shows page sel part P := ⟨ws, exec_statusRead_some hservice hws, hP⟩
  refine ⟨fun page sel part => ⟨fun hnamed => ?named, fun hnot => exec_statusRead_none hservice ?unnamed⟩,
    fun sel part => hshows rfl (stationWords hbounded), fun x => ?arm, fun p part hp => ?channels, fun part => ?aggregates,
    fun first part htip => ?tips, fun sel part => hshows rfl ⟨rfl, fun p hp => portsPage_show hp⟩, fun sel part hrecords => ?zones,
    fun sel part hsel => hshows (if_pos hsel) (eventsPage_show hbounded sel.toNat), fun k part => ?tables⟩
  case named =>
    obtain ⟨ws, hws⟩ := Option.isSome_iff_exists.mp (isSome_statusPage.2 hnamed)
    exact hshows hws trivial
  case unnamed =>
    rw [← Option.not_isSome_iff_eq_none, isSome_statusPage]
    exact hnot
  case arm => cases x <;> exact ⟨hshows rfl armWords0, hshows rfl armWords1⟩
  case channels => exact hshows (if_pos hp) ⟨rfl, fun i hi c hc => channelsPage_show hi hc⟩
  case aggregates =>
    obtain ⟨-, -, -, -, -, -, -, -, -, -, -, haggregates⟩ := hbounded
    exact hshows rfl ⟨by rw [aggregatesPage, List.length_map, haggregates], fun i g hg => aggregatesPage_show hg⟩
  case tips =>
    have hfirst : first = 32 ↔ first.toNat = 32 := byte_eq_iff (by decide)
    obtain ⟨hlength, htake, hdrop, hzero⟩ := tipsPage_show (s := s) first.toNat
    exact hshows (if_pos htip) ⟨hlength, htake, fun h => hdrop (mt hfirst.2 h), fun h => hzero (hfirst.1 h)⟩
  case zones =>
    obtain ⟨hlength, hzones, hinside⟩ := zonesPage_show hrecords.1
    refine hshows rfl ⟨hlength, hzones, fun x => ⟨(hinside x).1, fun z hz => ((hinside x).2 z hz).trans ?_⟩⟩
    cases insideOf s x z <;> rfl
  case tables => exact hshows (by rw [statusPage_tables, kindOf_kindByte, Option.map_some]) (tablesPage_show k)

end Sys2Proof.Proofs
end
